-- ==== Sys2Proof/Word.lean ====
section
/-! DEFINITION. The widths of the machine: a byte (general registers, memory cells, timers), a 16-bit word (I, PC,
STACK cells, opcodes), a nibble (register numbers and n) and a 12-bit address field (10_state.md R20, R24, R26, R30;
30_encoding.md R72). All numbers are unsigned (00_scope.md R12). -/

namespace Sys2Proof

/-- 8 bits: a general register, a memory cell, a timer, an immediate kk. -/
abbrev Byte := BitVec 8

/-- 16 bits: I, PC, a STACK cell, an opcode. -/
abbrev Word := BitVec 16

/-- 4 bits: the immediate n of Dxyn, and each of the four digits of an opcode pattern (R13). -/
abbrev Nibble := BitVec 4

/-- A general register number, an opcode nibble and so always 0 to 15 (R20). -/
abbrev Reg := BitVec 4

/-- 12 bits: the address field nnn. -/
abbrev Addr := BitVec 12

/-- VF, the 16th general register (R20, R23). -/
abbrev vf : Reg := 0xF#4

end Sys2Proof
end

