-- ==== Sys2Proof/Decode.lean ====
section
/-! DEFINITION. Decode (30_encoding.md R72 to R79), total on 16-bit words and on byte sequences; the encoder, written
from the same table; the table's rows themselves (R75). -/

namespace Sys2Proof

/-! ### Fields (R72; log entry 22) -/

/-- Bits 15:12, the high nibble. -/
def opField (w : Word) : Nibble := w.extractLsb' 12 4
/-- Bits 11:8. -/
def xField (w : Word) : Reg := w.extractLsb' 8 4
/-- Bits 7:4. -/
def yField (w : Word) : Reg := w.extractLsb' 4 4
/-- Bits 3:0. -/
def nField (w : Word) : Nibble := w.extractLsb' 0 4
/-- Bits 7:0. -/
def kkField (w : Word) : Byte := w.extractLsb' 0 8
/-- Bits 11:0. -/
def nnnField (w : Word) : Addr := w.extractLsb' 0 12

/-! ### Decoding -/

/-- Why a word is no instruction: the four groups that hold unrecognised words (R76), each with the sub-select that
names no operation; or fewer than two bytes were given. -/
inductive Unrecognised where
  /-- 0x0_kk with kk not E0 and not EE. -/
  | group0 (kk : Byte)
  /-- 0x8xyn with n in 8, 9, A, B, C, D, F (41_alu.md R133). -/
  | group8 (n : Nibble)
  /-- 0xExkk with kk not 9E and not A1. -/
  | groupE (kk : Byte)
  /-- 0xFxkk with kk not one of 07, 0A, 15, 18, 1E, 29, 33, 55, 65. -/
  | groupF (kk : Byte)
  /-- Fewer than two bytes: no word at all (only `decodeBytes`; a fetch always gives two bytes). -/
  | truncated
  deriving DecidableEq, Repr

/-- "enumeration with 35+1 cases": with R82 the 34 instructions plus one for the unrecognised word (R79). -/
inductive Decoded where
  | instr (i : Instr)
  | unrecognised (why : Unrecognised)
  deriving DecidableEq, Repr

/-- Group 0 selects on the low byte only; bits 11:8 are ignored (R75, D2; log entry 13). -/
def decodeGroup0 (kk : Byte) : Decoded :=
  match kk with
  | 0xE0#8 => .instr .cls
  | 0xEE#8 => .instr .ret
  | _ => .unrecognised (.group0 kk)

/-- Group 8 selects on the low nibble, nine values for nine operations in the order listed (R77; log entry 22). -/
def decodeGroup8 (x y : Reg) (n : Nibble) : Decoded :=
  match n with
  | 0x0#4 => .instr (.ldReg x y)
  | 0x1#4 => .instr (.orReg x y)
  | 0x2#4 => .instr (.andReg x y)
  | 0x3#4 => .instr (.xorReg x y)
  | 0x4#4 => .instr (.addReg x y)
  | 0x5#4 => .instr (.subReg x y)
  | 0x6#4 => .instr (.shr x)
  | 0x7#4 => .instr (.subn x y)
  | 0xE#4 => .instr (.shl x)
  | _ => .unrecognised (.group8 n)

/-- Group E selects on the low byte. -/
def decodeGroupE (x : Reg) (kk : Byte) : Decoded :=
  match kk with
  | 0x9E#8 => .instr (.skp x)
  | 0xA1#8 => .instr (.sknp x)
  | _ => .unrecognised (.groupE kk)

/-- Group F selects on the low byte (R77). -/
def decodeGroupF (x : Reg) (kk : Byte) : Decoded :=
  match kk with
  | 0x07#8 => .instr (.ldVxDT x)
  | 0x0A#8 => .instr (.ldVxK x)
  | 0x15#8 => .instr (.ldDTVx x)
  | 0x18#8 => .instr (.ldSTVx x)
  | 0x1E#8 => .instr (.addI x)
  | 0x29#8 => .instr (.ldF x)
  | 0x33#8 => .instr (.ldB x)
  | 0x55#8 => .instr (.storeRegs x)
  | 0x65#8 => .instr (.loadRegs x)
  | _ => .unrecognised (.groupF kk)

/-- `Decode(op)` (R75): the high nibble always, and where ambiguous the low byte or the low nibble. -/
def decode (w : Word) : Decoded :=
  match opField w with
  | 0x0#4 => decodeGroup0 (kkField w)
  | 0x1#4 => .instr (.jp (nnnField w))
  | 0x2#4 => .instr (.call (nnnField w))
  | 0x3#4 => .instr (.seImm (xField w) (kkField w))
  | 0x4#4 => .instr (.sneImm (xField w) (kkField w))
  | 0x5#4 => .instr (.seReg (xField w) (yField w))
  | 0x6#4 => .instr (.ldImm (xField w) (kkField w))
  | 0x7#4 => .instr (.addImm (xField w) (kkField w))
  | 0x8#4 => decodeGroup8 (xField w) (yField w) (nField w)
  | 0x9#4 => .instr (.sneReg (xField w) (yField w))
  | 0xA#4 => .instr (.ldI (nnnField w))
  | 0xB#4 => .instr (.jpV0 (nnnField w))
  | 0xC#4 => .instr (.rnd (xField w) (kkField w))
  | 0xD#4 => .instr (.drw (xField w) (yField w) (nField w))
  | 0xE#4 => decodeGroupE (xField w) (kkField w)
  | _ => decodeGroupF (xField w) (kkField w)

/-- Two bytes as an opcode, the first is bits 15:8 (20_memory.md R53). -/
def wordOfBytes (hi lo : Byte) : Word := hi ++ lo

/-- Decode the instruction at the head of a byte sequence and give the rest of the sequence; every instruction is two
bytes (R71). -/
def decodeBytes : List Byte → Decoded × List Byte
  | hi :: lo :: rest => (decode (wordOfBytes hi lo), rest)
  | bs => (.unrecognised .truncated, bs)

/-! ### Encoding -/

/-- The word of an instruction, from the patterns of R75; bits the decoder ignores are 0, as an assembler emits them
(R107, R108; log entry 13). -/
def encode : Instr → Word
  | .cls => 0x00E0#16
  | .ret => 0x00EE#16
  | .jp nnn => 0x1#4 ++ nnn
  | .call nnn => 0x2#4 ++ nnn
  | .seImm x kk => 0x3#4 ++ x ++ kk
  | .sneImm x kk => 0x4#4 ++ x ++ kk
  | .seReg x y => 0x5#4 ++ x ++ y ++ 0x0#4
  | .ldImm x kk => 0x6#4 ++ x ++ kk
  | .addImm x kk => 0x7#4 ++ x ++ kk
  | .ldReg x y => 0x8#4 ++ x ++ y ++ 0x0#4
  | .orReg x y => 0x8#4 ++ x ++ y ++ 0x1#4
  | .andReg x y => 0x8#4 ++ x ++ y ++ 0x2#4
  | .xorReg x y => 0x8#4 ++ x ++ y ++ 0x3#4
  | .addReg x y => 0x8#4 ++ x ++ y ++ 0x4#4
  | .subReg x y => 0x8#4 ++ x ++ y ++ 0x5#4
  | .shr x => 0x8#4 ++ x ++ 0x0#4 ++ 0x6#4
  | .subn x y => 0x8#4 ++ x ++ y ++ 0x7#4
  | .shl x => 0x8#4 ++ x ++ 0x0#4 ++ 0xE#4
  | .sneReg x y => 0x9#4 ++ x ++ y ++ 0x0#4
  | .ldI nnn => 0xA#4 ++ nnn
  | .jpV0 nnn => 0xB#4 ++ nnn
  | .rnd x kk => 0xC#4 ++ x ++ kk
  | .drw x y n => 0xD#4 ++ x ++ y ++ n
  | .skp x => 0xE#4 ++ x ++ 0x9E#8
  | .sknp x => 0xE#4 ++ x ++ 0xA1#8
  | .ldVxDT x => 0xF#4 ++ x ++ 0x07#8
  | .ldVxK x => 0xF#4 ++ x ++ 0x0A#8
  | .ldDTVx x => 0xF#4 ++ x ++ 0x15#8
  | .ldSTVx x => 0xF#4 ++ x ++ 0x18#8
  | .addI x => 0xF#4 ++ x ++ 0x1E#8
  | .ldF x => 0xF#4 ++ x ++ 0x29#8
  | .ldB x => 0xF#4 ++ x ++ 0x33#8
  | .storeRegs x => 0xF#4 ++ x ++ 0x55#8
  | .loadRegs x => 0xF#4 ++ x ++ 0x65#8

/-- The high byte of a word, which stands at the lower address (20_memory.md R53). -/
def hiByte (w : Word) : Byte := w.extractLsb' 8 8
/-- The low byte of a word. -/
def loByte (w : Word) : Byte := w.extractLsb' 0 8

/-- The two bytes of an instruction in memory order. -/
def encodeBytes (i : Instr) : List Byte := [hiByte (encode i), loByte (encode i)]

/-! ### The rows of the decode table -/

/-- A row of R75: a word `w` selects it when `w & mask == pattern`. -/
structure Row where
  mask : Word
  pattern : Word
  deriving DecidableEq, Repr

/-- `w` selects the row. -/
def Row.selects (r : Row) (w : Word) : Bool := w &&& r.mask == r.pattern

/-- The row of an instruction, mask and match as R75 prints them. -/
def rowOf : Instr → Row
  | .cls => ⟨0xF0FF, 0x00E0⟩
  | .ret => ⟨0xF0FF, 0x00EE⟩
  | .jp _ => ⟨0xF000, 0x1000⟩
  | .call _ => ⟨0xF000, 0x2000⟩
  | .seImm _ _ => ⟨0xF000, 0x3000⟩
  | .sneImm _ _ => ⟨0xF000, 0x4000⟩
  | .seReg _ _ => ⟨0xF000, 0x5000⟩
  | .ldImm _ _ => ⟨0xF000, 0x6000⟩
  | .addImm _ _ => ⟨0xF000, 0x7000⟩
  | .ldReg _ _ => ⟨0xF00F, 0x8000⟩
  | .orReg _ _ => ⟨0xF00F, 0x8001⟩
  | .andReg _ _ => ⟨0xF00F, 0x8002⟩
  | .xorReg _ _ => ⟨0xF00F, 0x8003⟩
  | .addReg _ _ => ⟨0xF00F, 0x8004⟩
  | .subReg _ _ => ⟨0xF00F, 0x8005⟩
  | .shr _ => ⟨0xF00F, 0x8006⟩
  | .subn _ _ => ⟨0xF00F, 0x8007⟩
  | .shl _ => ⟨0xF00F, 0x800E⟩
  | .sneReg _ _ => ⟨0xF000, 0x9000⟩
  | .ldI _ => ⟨0xF000, 0xA000⟩
  | .jpV0 _ => ⟨0xF000, 0xB000⟩
  | .rnd _ _ => ⟨0xF000, 0xC000⟩
  | .drw _ _ _ => ⟨0xF000, 0xD000⟩
  | .skp _ => ⟨0xF0FF, 0xE09E⟩
  | .sknp _ => ⟨0xF0FF, 0xE0A1⟩
  | .ldVxDT _ => ⟨0xF0FF, 0xF007⟩
  | .ldVxK _ => ⟨0xF0FF, 0xF00A⟩
  | .ldDTVx _ => ⟨0xF0FF, 0xF015⟩
  | .ldSTVx _ => ⟨0xF0FF, 0xF018⟩
  | .addI _ => ⟨0xF0FF, 0xF01E⟩
  | .ldF _ => ⟨0xF0FF, 0xF029⟩
  | .ldB _ => ⟨0xF0FF, 0xF033⟩
  | .storeRegs _ => ⟨0xF0FF, 0xF055⟩
  | .loadRegs _ => ⟨0xF0FF, 0xF065⟩

/-- The 34 rows of R75, in the table's order. -/
def opcodeRows : List Row :=
  [⟨0xF0FF, 0x00E0⟩, ⟨0xF0FF, 0x00EE⟩, ⟨0xF000, 0x1000⟩, ⟨0xF000, 0x2000⟩, ⟨0xF000, 0x3000⟩, ⟨0xF000, 0x4000⟩,
   ⟨0xF000, 0x5000⟩, ⟨0xF000, 0x6000⟩, ⟨0xF000, 0x7000⟩]
  ++ [⟨0xF00F, 0x8000⟩, ⟨0xF00F, 0x8001⟩, ⟨0xF00F, 0x8002⟩, ⟨0xF00F, 0x8003⟩, ⟨0xF00F, 0x8004⟩, ⟨0xF00F, 0x8005⟩,
   ⟨0xF00F, 0x8006⟩, ⟨0xF00F, 0x8007⟩, ⟨0xF00F, 0x800E⟩]
  ++ [⟨0xF000, 0x9000⟩, ⟨0xF000, 0xA000⟩, ⟨0xF000, 0xB000⟩, ⟨0xF000, 0xC000⟩, ⟨0xF000, 0xD000⟩,
   ⟨0xF0FF, 0xE09E⟩, ⟨0xF0FF, 0xE0A1⟩]
  ++ [⟨0xF0FF, 0xF007⟩, ⟨0xF0FF, 0xF00A⟩, ⟨0xF0FF, 0xF015⟩, ⟨0xF0FF, 0xF018⟩, ⟨0xF0FF, 0xF01E⟩, ⟨0xF0FF, 0xF029⟩,
   ⟨0xF0FF, 0xF033⟩, ⟨0xF0FF, 0xF055⟩, ⟨0xF0FF, 0xF065⟩]

/-! ### The host's numbering -/

/-- The bits the opcode table gives a row, as the two bytes the hardware stores: every instruction is one 16-bit word,
so bit 0 of `w` is the word's bit 0, bits at and above `nbits` are 0, and the high byte stands first (R53). -/
def tableBytes (nbits w : Nat) : List Byte :=
  [hiByte (BitVec.ofNat 16 (w % 2 ^ nbits)), loByte (BitVec.ofNat 16 (w % 2 ^ nbits))]

/-- The instruction the decoder reads from such a word; none where it is unrecognised. -/
def decodeTableWord (nbits w : Nat) : Option Instr :=
  match (decodeBytes (tableBytes nbits w)).1 with
  | .instr i => some i
  | .unrecognised _ => none

end Sys2Proof
end

