-- ==== Sys2Proof/Config.lean ====
section
/-! DEFINITION. What the environment supplies and the spec leaves free (00_scope.md R11, 10_state.md R43): the keys of
each frame, the draw of each tick, the number of ticks in a frame. Each is a constant with no body, so no proof can
see its value. -/

namespace Sys2Proof

/-- A draw of the random input rnd_in: 1 to 255 (42_random.md R141), held as the number one below it. -/
abbrev Draw := Fin 255

/-- The port keys_in at the `n`-th FRAME_START: bit i is 1 when key i is down (R43, 60_exceptions.md R210).
Free value, log entry 3 (safe). -/
opaque Config.keysIn : Nat → BitVec 16

/-- The port rnd_in at the `n`-th TICK (R43, R141). Free value, log entry 4 (safe). -/
opaque Config.rndIn : Nat → Draw

/-- TICKS_PER_FRAME less one. Free value, log entry 2. -/
opaque Config.extraTicks : Nat

/-- TICKS_PER_FRAME, "a positive integer fixed by the environment" (92_eei_decisions.md D19; R11 leaves it open). -/
def Config.ticksPerFrame : Nat := Config.extraTicks + 1

end Sys2Proof
end

