-- ==== Sys2Proof/Machine/State.lean ====
section
/-! DEFINITION. The state of the machine (10_state.md), all of it, as plain data; why a step can stop; the state after
reset (10_state.md R32, 70_reset_and_hazards.md R230). -/

namespace Sys2Proof.Machine

/-- MEM as the list of the cells that differ from their reset contents, addresses strictly rising (R30; log entry 10). -/
abbrev Memory := List Host.Cell

/-- FB: row y is element y, column x of it is bit x; the spec's cell x + y*64 (R31; log entry 21). -/
abbrev FrameBuffer := Vector (BitVec 64) 32

/-- Which event the environment sends next (00_scope.md R9; log entry 1). -/
inductive Phase where
  /-- FRAME_START is due. -/
  | frameStart
  /-- `left` more TICKs, then FRAME_END: FRAME_END is due when `left` is 0. -/
  | ticks (left : Nat)
  deriving DecidableEq, Repr

/-- What report_bad_opcode(op, addr) carries (R44; log entry 19). -/
structure BadOpcode where
  opcode : Word
  addr : Word
  deriving DecidableEq, Repr

/-- The machine (R32), with the model's own fields last. -/
structure State where
  /-- V0 to VF (R20). -/
  v : Vector Byte 16
  /-- The address register I (R24). -/
  i : Word
  /-- The program counter: between ticks the next instruction's address, inside one the post-fetch PC (R26). -/
  pc : Word
  /-- MEM (R30). -/
  mem : Memory
  /-- The framebuffer FB (R31). -/
  fb : FrameBuffer
  /-- STACK[0..15] (R34). -/
  stack : Vector Word 16
  /-- SP, 0 to 16 (R34). -/
  sp : Fin 17
  /-- The delay timer DT (R37). -/
  dt : Byte
  /-- The sound timer ST (R37). -/
  st : Byte
  /-- KEY[0..15]: bit i is KEY[i], 1 means down (R38). -/
  key : BitVec 16
  /-- The output register TONE (R39). -/
  tone : Bool
  /-- The strobe report_bad_opcode of the latest tick (R44); an output no instruction reads. -/
  report : Option BadOpcode
  /-- The model's own: the draw on rnd_in during the latest tick (R43, R141). -/
  rndIn : Draw
  /-- The model's own: the environment's place in the frame (R9). -/
  phase : Phase
  /-- The model's own: FRAME_STARTs sent so far. -/
  frameNo : Nat
  /-- The model's own: TICKs sent so far. -/
  tickNo : Nat
  deriving DecidableEq, Repr

/-- Why the machine stops with a fault. It has no constructor: no instruction raises an exception in any state, every
tolerated condition is a defined step (60_exceptions.md R200 to R202). -/
inductive Fault
  deriving DecidableEq, Repr

/-- Why the model refuses. -/
inductive Refusal where
  /-- Raised by exec's arm of an instruction that has no meaning yet (none is left); safe. -/
  | notModelled (mnemonic : String)
  /-- Raised by the event RESET(rom) with a rom of more than 3584 bytes: "a model refuses a longer image"
  (70_reset_and_hazards.md R233; log entry 11); safe. -/
  | romTooLong
  deriving DecidableEq, Repr

/-- What a meaning, an event and a step answer. -/
abbrev Result := Host.Outcome State Fault Refusal

/-- The machine right after RESET with an empty ROM (R32, R230): PC = 0x0200, memory at its reset contents (nothing
listed), everything else zero. Fields the source gives no value for: log entry 8; the model's own fields: log entries
1, 3, 4, 19. -/
def State.reset : State where
  v := Vector.replicate 16 0
  i := 0x0000
  pc := 0x0200
  mem := []
  fb := Vector.replicate 32 0
  stack := Vector.replicate 16 0
  sp := 0
  dt := 0
  st := 0
  key := 0
  tone := false
  report := none
  rndIn := 0
  phase := .frameStart
  frameNo := 0
  tickNo := 0

end Sys2Proof.Machine
end

