-- ==== Sys2Proof/Machine/Ops.lean ====
section
/-! DEFINITION. The named operations over memory, registers, stack, framebuffer and keys (20_memory.md, 10_state.md).
There is no operation for taking an exception or returning from one: this hardware has neither (60_exceptions.md R200,
R203, R205, R206). -/

namespace Sys2Proof.Machine

/-! ### Memory -/

/-- FONT[0..79] (10_state.md R33), a parameter of the spec at its default value (R11; log entry 9). -/
def font : List Byte :=
  [0xF0, 0x90, 0x90, 0x90, 0xF0, 0x20, 0x60, 0x20, 0x20, 0x70]
  ++ [0xF0, 0x10, 0xF0, 0x80, 0xF0, 0xF0, 0x10, 0xF0, 0x10, 0xF0]
  ++ [0x90, 0x90, 0xF0, 0x10, 0x10, 0xF0, 0x80, 0xF0, 0x10, 0xF0]
  ++ [0xF0, 0x80, 0xF0, 0x90, 0xF0, 0xF0, 0x10, 0x20, 0x40, 0x40]
  ++ [0xF0, 0x90, 0xF0, 0x90, 0xF0, 0xF0, 0x90, 0xF0, 0x10, 0xF0]
  ++ [0xF0, 0x90, 0xF0, 0x90, 0x90, 0xE0, 0x90, 0xE0, 0x90, 0xE0]
  ++ [0xF0, 0x80, 0x80, 0x80, 0xF0, 0xE0, 0x90, 0x90, 0x90, 0xE0]
  ++ [0xF0, 0x80, 0xF0, 0x80, 0xF0, 0xF0, 0x80, 0xF0, 0x80, 0x80]

/-- FONT_BASE (00_scope.md R10). -/
def fontBase : Nat := 0x050

/-- What an unlisted address reads as: its reset contents, the font at 0x050 to 0x09F and 0 elsewhere
(10_state.md R32; log entry 10). -/
def Memory.unlisted (a : Nat) : Byte :=
  if a < fontBase then 0 else font.getD (a - fontBase) 0

/-- The cell at a masked address. -/
def Memory.read : Memory → Nat → Byte
  | [], a => Memory.unlisted a
  | (b, w) :: rest, a => if a = b then w else Memory.read rest a

/-- Put a cell in front, unless it holds what an unlisted address reads as. -/
def Memory.cons (a : Nat) (x : Byte) (m : Memory) : Memory :=
  if x = Memory.unlisted a then m else (a, x) :: m

/-- Write the cell at a masked address, keeping the canonical form. -/
def Memory.write (a : Nat) (x : Byte) : Memory → Memory
  | [] => Memory.cons a x []
  | (b, w) :: rest =>
    if a < b then Memory.cons a x ((b, w) :: rest)
    else if a = b then Memory.cons a x rest
    else (b, w) :: Memory.write a x rest

/-- Every listed address lies above `lo` and the addresses strictly rise. -/
def Memory.risesFrom : Nat → Memory → Bool
  | _, [] => true
  | lo, (a, _) :: rest => decide (lo ≤ a) && Memory.risesFrom (a + 1) rest

/-- The canonical form: addresses strictly rising and below 4096, no entry equal to what an unlisted address reads as. -/
def Memory.wf (m : Memory) : Bool :=
  Memory.risesFrom 0 m && m.all (fun c => decide (c.1 < 4096) && c.2 != Memory.unlisted c.1)

/-- The 12-bit mask every access applies to its address (20_memory.md R50, R51, R58). -/
def maskAddr (addr : Nat) : Nat := addr % 4096

/-- `MemRead(addr, 1)` (R50). -/
def State.readByte (s : State) (addr : Nat) : Byte := s.mem.read (maskAddr addr)

/-- `MemWrite(addr, 1, v)` (R51). -/
def State.writeByte (s : State) (addr : Nat) (x : Byte) : State := { s with mem := s.mem.write (maskAddr addr) x }

/-- `Fetch(addr)`: big-endian, each byte address masked on its own (R52). -/
def State.fetch (s : State) (addr : Word) : Word :=
  wordOfBytes (s.readByte addr.toNat) (s.readByte (addr.toNat + 1))

/-- Write consecutive bytes from `addr` upwards, each address masked on its own. -/
def Memory.load (addr : Nat) : List Byte → Memory → Memory
  | [], m => m
  | b :: bs, m => Memory.load (addr + 1) bs (m.write (maskAddr addr) b)

/-! ### General registers, I, PC, timers -/

/-- `V[x]` (10_state.md R20). -/
def State.getV (s : State) (x : Reg) : Byte := s.v[x.toNat]'x.isLt

/-- `V[x] <- val`. -/
def State.setV (s : State) (x : Reg) (val : Byte) : State := { s with v := s.v.set x.toNat val x.isLt }

/-- `I <- w`: the register does not mask (10_state.md R25). -/
def State.setI (s : State) (w : Word) : State := { s with i := w }

/-- `PC <- target`: never masked when written (10_state.md R27). -/
def State.setPC (s : State) (w : Word) : State := { s with pc := w }

/-- `DT <- val`. -/
def State.setDT (s : State) (val : Byte) : State := { s with dt := val }

/-- `ST <- val`. -/
def State.setST (s : State) (val : Byte) : State := { s with st := val }

/-- A skip: PC moves by 2 more, modulo 65536, when the condition holds (40_control_flow.md R100). -/
def State.skipIf (s : State) (cond : Bool) : State := s.setPC (if cond then s.pc + 2 else s.pc)

/-- `V[k] <- f k` for k below `n`, in ascending order from V[0]. -/
def writeRegs (n : Nat) (f : Nat → Byte) (v : Vector Byte 16) : Vector Byte 16 :=
  (List.range n).foldl (fun v k => v.set (BitVec.ofNat 4 k).toNat (f k) (BitVec.ofNat 4 k).isLt) v

/-- V[0] to V[n - 1] replaced by `f`. -/
def State.setVs (s : State) (n : Nat) (f : Nat → Byte) : State := { s with v := writeRegs n f s.v }

/-- `MemWrite(addr + k, 1, f k)` for k below `n`, in ascending order. -/
def Memory.writeBlock (addr n : Nat) (f : Nat → Byte) (m : Memory) : Memory :=
  (List.range n).foldl (fun m k => m.write (maskAddr (addr + k)) (f k)) m

/-- The `n` cells from `addr` replaced by `f`. -/
def State.writeBytes (s : State) (addr n : Nat) (f : Nat → Byte) : State :=
  { s with mem := s.mem.writeBlock addr n f }

/-! ### The call stack -/

/-- The cells after `Push(w)`: the one SP indexes, unless the stack is full (10_state.md R35). -/
def State.pushCells (s : State) (w : Word) : Vector Word 16 :=
  if h : s.sp.val < 16 then s.stack.set s.sp.val w h else s.stack

/-- SP after a push: one higher, and still 16 when the stack is full (R35). -/
def State.pushDepth (s : State) : Fin 17 :=
  if h : s.sp.val < 16 then ⟨s.sp.val + 1, Nat.succ_lt_succ h⟩ else s.sp

/-- `Push(w)`: dropped when SP = 16 (R35). -/
def State.push (s : State) (w : Word) : State := { s with stack := s.pushCells w, sp := s.pushDepth }

/-- What `Pop()` returns: the top entry, or 0 when the stack is empty (R36). -/
def State.popValue (s : State) : Word :=
  if s.sp.val = 0 then 0 else s.stack[s.sp.val - 1]'(by have := s.sp.isLt; omega)

/-- What `Pop()` leaves: SP one lower, no cell changed; nothing when the stack is empty (R36). -/
def State.popState (s : State) : State := { s with sp := ⟨s.sp.val - 1, by have := s.sp.isLt; omega⟩ }

/-! ### The framebuffer and the collision detector -/

/-- FB[px + py*64]; false outside the framebuffer. -/
def FrameBuffer.cell (fb : FrameBuffer) (px py : Nat) : Bool :=
  if h : py < 32 then (fb[py]'h).getLsbD px else false

/-- FB[i] by the spec's flat index (10_state.md R31). -/
def FrameBuffer.flat (fb : FrameBuffer) (i : Nat) : Bool := FrameBuffer.cell fb (i % 64) (i / 64)

/-- FB[px + py*64] <- FB[px + py*64] ^ 1. -/
def FrameBuffer.toggle (fb : FrameBuffer) (px py : Nat) : FrameBuffer :=
  if h : py < 32 then fb.set py (fb[py]'h ^^^ BitVec.twoPow 64 px) h else fb

/-- Every cell 0 (43_display.md R145). -/
def FrameBuffer.clear : FrameBuffer := Vector.replicate 32 0

/-- A framebuffer being drawn on, and whether a drawn pixel has found its cell at 1 so far. -/
structure Canvas where
  fb : FrameBuffer
  hit : Bool
  deriving DecidableEq, Repr

/-- One set sprite bit at column px, row py: clipped when outside, else the collision test and then the XOR
(43_display.md R146, R147; log entry 6). -/
def drawPixel (px py : Nat) (c : Canvas) : Canvas :=
  if px ≤ 63 ∧ py ≤ 31 then ⟨c.fb.toggle px py, c.hit || c.fb.cell px py⟩ else c

/-- One sprite byte at column x0, row py: bit 7 is the leftmost column (R149; log entry 7). -/
def drawRow (b : Byte) (x0 py : Nat) (c : Canvas) : Canvas :=
  (List.range 8).foldl (fun c k => if b.getLsbD (7 - k) then drawPixel (x0 + k) py c else c) c

/-- `n` sprite bytes, the top row first (R151; log entry 7). -/
def drawSprite (rows : Nat → Byte) (n x0 y0 : Nat) (c : Canvas) : Canvas :=
  (List.range n).foldl (fun c r => drawRow (rows r) x0 (y0 + r) c) c

/-- `FB` replaced. -/
def State.setFB (s : State) (fb : FrameBuffer) : State := { s with fb := fb }

/-! ### Keys and the draw -/

/-- `KeyDown(v) = KEY[v[3:0]]` (44_keypad.md R160). -/
def State.keyDown (s : State) (val : Byte) : Bool := s.key.getLsbD (val.toNat % 16)

/-- The draw r as a byte, 1 to 255 (42_random.md R141). -/
def drawByte (r : Draw) : Byte := BitVec.ofNat 8 (r.val + 1)

/-- What RND writes: r mod kk, and 0 for kk = 0 (R140, R142; log entry 5). -/
def rndValue (r : Draw) (kk : Byte) : Byte := if kk = 0 then 0 else drawByte r % kk

end Sys2Proof.Machine
end

