-- ==== Sys2Proof/Machine/Operands.lean ====
section
/-! DEFINITION. The operand forms (30_encoding.md R74, 45_timers_index_memory.md R177): a register, an immediate
zero-extended to the width of the operation, and a memory cell at I plus an offset. -/

namespace Sys2Proof.Machine

/-- `zext_16(nnn)` (R74). -/
def zextAddr (nnn : Addr) : Word := nnn.setWidth 16

/-- `zext_16(v)` of a byte (R74). -/
def zextByte (val : Byte) : Word := val.setWidth 16

/-- The address of element `k`: I + k, formed without wrap and masked by the access (R177; log entry 18). -/
def State.effAddr (s : State) (k : Nat) : Nat := s.i.toNat + k

/-- Element `k` in memory at I. -/
def State.element (s : State) (k : Nat) : Byte := s.readByte (s.effAddr k)

/-- `V[k]` for a number k below 16 (R178). -/
def State.regAt (s : State) (k : Nat) : Byte := s.getV (BitVec.ofNat 4 k)

/-- The font glyph address of a digit: the whole byte, no nibble mask (R175; log entry 18). -/
def glyphAddr (digit : Byte) : Word := 0x0050 + 5 * zextByte digit

/-- The decimal digits, hundreds first (R176). -/
def bcdDigit (val : Byte) : Nat → Byte
  | 0 => val / 100
  | 1 => val / 10 % 10
  | _ => val % 10

end Sys2Proof.Machine
end

