-- ==== Sys2Proof/Machine/Flags.lean ====
section
/-! DEFINITION. The flag computations and the one way a flag is written (10_state.md R23, 41_alu.md R120, R132). -/

namespace Sys2Proof.Machine

/-- A flag in VF is exactly 0x00 or 0x01 (R132). -/
def flagByte (f : Bool) : Byte := if f then 0x01 else 0x00

/-- Carry: the true sum exceeds 255 (R132, R127). -/
def carry (a b : Byte) : Bool := decide (255 < a.toNat + b.toNat)

/-- NOT borrow of a - b: the minuend is at least the subtrahend (R132, R128, R130; log entry 16). -/
def notBorrow (a b : Byte) : Bool := decide (b.toNat ≤ a.toNat)

/-- Bit 0, shifted out by SHR (R129). -/
def lowBit (a : Byte) : Bool := a.getLsbD 0

/-- Bit 7, shifted out by SHL (R131). -/
def highBit (a : Byte) : Bool := a.getLsbD 7

/-- Fx1E: the unmasked sum exceeds 0x0FFF (R174). -/
def indexOverflow (idx : Word) (val : Byte) : Bool := decide (0x0FFF < idx.toNat + val.toNat)

/-- `VF <- flag`. -/
def State.setFlag (s : State) (f : Bool) : State := s.setV vf (flagByte f)

/-- The result to V[x], then the flag to VF, so that the flag remains when x is 15 (R120; log entry 15). -/
def State.setResultFlag (s : State) (x : Reg) (val : Byte) (f : Bool) : State := (s.setV x val).setFlag f

end Sys2Proof.Machine
end

