-- ==== Sys2Proof/Machine/Alu.lean ====
section
/-! DEFINITION. Register load and ALU (41_alu.md): LD, ADD, OR, AND, XOR, SUB, SHR, SUBN, SHL. All operands are read
from the state before the instruction (R120). -/

namespace Sys2Proof.Machine

/-- LD Vx, kk (R121). -/
def execLdImm (x : Reg) (kk : Byte) (s : State) : Result := .next (s.setV x kk)

/-- ADD Vx, kk (R122): wraps, no flag. -/
def execAddImm (x : Reg) (kk : Byte) (s : State) : Result := .next (s.setV x (s.getV x + kk))

/-- LD Vx, Vy (R123). -/
def execLdReg (x y : Reg) (s : State) : Result := .next (s.setV x (s.getV y))

/-- OR Vx, Vy (R124): VF unchanged (log entry 16). -/
def execOrReg (x y : Reg) (s : State) : Result := .next (s.setV x (s.getV x ||| s.getV y))

/-- AND Vx, Vy (R125): VF unchanged (log entry 16). -/
def execAndReg (x y : Reg) (s : State) : Result := .next (s.setV x (s.getV x &&& s.getV y))

/-- XOR Vx, Vy (R126): VF unchanged (log entry 16). -/
def execXorReg (x y : Reg) (s : State) : Result := .next (s.setV x (s.getV x ^^^ s.getV y))

/-- ADD Vx, Vy (R127). -/
def execAddReg (x y : Reg) (s : State) : Result :=
  .next (s.setResultFlag x (s.getV x + s.getV y) (carry (s.getV x) (s.getV y)))

/-- SUB Vx, Vy (R128). -/
def execSubReg (x y : Reg) (s : State) : Result :=
  .next (s.setResultFlag x (s.getV x - s.getV y) (notBorrow (s.getV x) (s.getV y)))

/-- SHR Vx (R129): only on Vx. -/
def execShr (x : Reg) (s : State) : Result := .next (s.setResultFlag x (s.getV x >>> 1) (lowBit (s.getV x)))

/-- SUBN Vx, Vy (R130). -/
def execSubn (x y : Reg) (s : State) : Result :=
  .next (s.setResultFlag x (s.getV y - s.getV x) (notBorrow (s.getV y) (s.getV x)))

/-- SHL Vx (R131): only on Vx. -/
def execShl (x : Reg) (s : State) : Result := .next (s.setResultFlag x (s.getV x <<< 1) (highBit (s.getV x)))

end Sys2Proof.Machine
end

