-- ==== Sys2Proof/Machine/Control.lean ====
section
/-! DEFINITION. Control transfer (40_control_flow.md): RET, JP, CALL, JP V0, SE, SNE. The state a meaning is given has
the post-fetch PC (30_encoding.md R70). -/

namespace Sys2Proof.Machine

/-- RET (R101): PC <- Pop(). -/
def execRet (s : State) : Result := .next (s.popState.setPC s.popValue)

/-- JP nnn (R102). -/
def execJp (nnn : Addr) (s : State) : Result := .next (s.setPC (zextAddr nnn))

/-- CALL nnn (R103): Push(PC), dropped when the stack is full; then the jump. -/
def execCall (nnn : Addr) (s : State) : Result := .next ((s.push s.pc).setPC (zextAddr nnn))

/-- JP V0, nnn (R104): a 16-bit sum, not masked (log entry 14). -/
def execJpV0 (nnn : Addr) (s : State) : Result := .next (s.setPC (zextAddr nnn + zextByte (s.getV 0)))

/-- SE Vx, kk (R105). -/
def execSeImm (x : Reg) (kk : Byte) (s : State) : Result := .next (s.skipIf (s.getV x == kk))

/-- SNE Vx, kk (R106). -/
def execSneImm (x : Reg) (kk : Byte) (s : State) : Result := .next (s.skipIf (s.getV x != kk))

/-- SE Vx, Vy (R107). -/
def execSeReg (x y : Reg) (s : State) : Result := .next (s.skipIf (s.getV x == s.getV y))

/-- SNE Vx, Vy (R108). -/
def execSneReg (x y : Reg) (s : State) : Result := .next (s.skipIf (s.getV x != s.getV y))

end Sys2Proof.Machine
end

