-- ==== Sys2Proof/Machine/Display.lean ====
section
/-! DEFINITION. The display instructions (43_display.md): CLS, DRW. -/

namespace Sys2Proof.Machine

/-- CLS (R145). -/
def execCls (s : State) : Result := .next (s.setFB FrameBuffer.clear)

/-- The canvas after drawing the `n` bytes at I at the origin (V[x] mod 64, V[y] mod 32) (R146, R151). -/
def State.drawn (s : State) (x y : Reg) (n : Nibble) : Canvas :=
  drawSprite s.element n.toNat ((s.getV x).toNat % 64) ((s.getV y).toNat % 32) ⟨s.fb, false⟩

/-- DRW Vx, Vy, n (R146): the framebuffer, then VF <- collision, also when n is 0. -/
def execDrw (x y : Reg) (n : Nibble) (s : State) : Result :=
  .next ((s.setFB (s.drawn x y n).fb).setFlag (s.drawn x y n).hit)

end Sys2Proof.Machine
end

