-- ==== Sys2Proof/Machine/IndexMemory.lean ====
section
/-! DEFINITION. Address register, timer moves and memory (45_timers_index_memory.md). I is neither pre- nor
post-modified by a load or a store (R177; log entry 18). -/

namespace Sys2Proof.Machine

/-- LD I, nnn (R170). -/
def execLdI (nnn : Addr) (s : State) : Result := .next (s.setI (zextAddr nnn))

/-- LD Vx, DT (R171). -/
def execLdVxDT (x : Reg) (s : State) : Result := .next (s.setV x s.dt)

/-- LD DT, Vx (R172). -/
def execLdDTVx (x : Reg) (s : State) : Result := .next (s.setDT (s.getV x))

/-- LD ST, Vx (R173). -/
def execLdSTVx (x : Reg) (s : State) : Result := .next (s.setST (s.getV x))

/-- ADD I, Vx (R174): the sum without wrap, its low 12 bits to I, then VF <- sum > 0x0FFF (log entry 18). -/
def execAddI (x : Reg) (s : State) : Result :=
  .next ((s.setI (BitVec.ofNat 16 ((s.i.toNat + (s.getV x).toNat) % 4096))).setFlag (indexOverflow s.i (s.getV x)))

/-- LD F, Vx (R175). -/
def execLdF (x : Reg) (s : State) : Result := .next (s.setI (glyphAddr (s.getV x)))

/-- LD B, Vx (R176): three cells from I, hundreds first. -/
def execLdB (x : Reg) (s : State) : Result := .next (s.writeBytes (s.effAddr 0) 3 (bcdDigit (s.getV x)))

/-- LD [I], Vx (R178): V[0] to V[x] to the x + 1 cells from I. -/
def execStoreRegs (x : Reg) (s : State) : Result := .next (s.writeBytes (s.effAddr 0) (x.toNat + 1) s.regAt)

/-- LD Vx, [I] (R179): the x + 1 cells from I to V[0] to V[x]. -/
def execLoadRegs (x : Reg) (s : State) : Result := .next (s.setVs (x.toNat + 1) s.element)

end Sys2Proof.Machine
end

