-- ==== Sys2Proof/Machine/Keypad.lean ====
section
/-! DEFINITION. The keypad instructions (44_keypad.md): SKP, SKNP, and the key-wait LD Vx, K. -/

namespace Sys2Proof.Machine

/-- SKP Vx (R161). -/
def execSkp (x : Reg) (s : State) : Result := .next (s.skipIf (s.keyDown (s.getV x)))

/-- SKNP Vx (R162). -/
def execSknp (x : Reg) (s : State) : Result := .next (s.skipIf (!s.keyDown (s.getV x)))

/-- LD Vx, K (R163, R164): rewinds PC onto itself, modulo 65536, while the key V[x] names is up; writes no register
(log entry 17). -/
def execLdVxK (x : Reg) (s : State) : Result :=
  .next (s.setPC (if s.keyDown (s.getV x) then s.pc else s.pc - 2))

end Sys2Proof.Machine
end

