-- ==== Sys2Proof/Machine/Random.lean ====
section
/-! DEFINITION. The random instruction (42_random.md). -/

namespace Sys2Proof.Machine

/-- RND Vx, kk (R140): the tick's draw modulo kk; kk = 0 writes 0 (R142; log entry 5). -/
def execRnd (x : Reg) (kk : Byte) (s : State) : Result := .next (s.setV x (rndValue s.rndIn kk))

end Sys2Proof.Machine
end

