-- ==== Sys2Proof/Machine/Events.lean ====
section
/-! DEFINITION. The four events (00_scope.md R8), each over every state, and the order in which the environment sends
them (R9; log entries 1, 2). -/

namespace Sys2Proof.Machine

/-- What the environment sends the core (R8). -/
inductive Event where
  /-- RESET(rom). -/
  | reset (rom : List Byte)
  /-- FRAME_START(keys): bit i is 1 when key i is down. -/
  | frameStart (keys : BitVec 16)
  /-- TICK(r). -/
  | tick (r : Draw)
  /-- FRAME_END. -/
  | frameEnd
  deriving DecidableEq, Repr

/-- The largest ROM, 4096 - 0x200 (70_reset_and_hazards.md R233). -/
def romMax : Nat := 3584

/-- Everything at its reset value and byte k of the ROM in MEM[0x200 + k] (R230, R233). -/
def State.resetWith (rom : List Byte) : State := { State.reset with mem := Memory.load 0x200 rom [] }

/-- RESET(rom) (R230): nothing of the previous run survives (R234); a longer ROM is refused (R233; log entry 11). -/
def resetEvent (rom : List Byte) : Result :=
  if rom.length ≤ romMax then .next (State.resetWith rom) else .refused .romTooLong

/-- FRAME_START(keys) (60_exceptions.md R210): all 16 flags are replaced, nothing else changes. -/
def State.frameStart (s : State) (keys : BitVec 16) : State := { s with key := keys }

/-- A timer's countdown: by 1 if greater than 0 (R212). -/
def countdown (t : Byte) : Byte := if t = 0 then 0 else t - 1

/-- FRAME_END, part 1 (R211): TONE from ST before the countdown (log entry 20). -/
def State.sampleTone (s : State) : State := { s with tone := s.st != 0 }

/-- FRAME_END, part 2 (R212). -/
def State.countTimers (s : State) : State := { s with dt := countdown s.dt, st := countdown s.st }

/-- FRAME_END (R211, R212). -/
def State.frameEnd (s : State) : State := s.sampleTone.countTimers

/-- What FRAME_END shows the display sink: the 2048 cells by the flat index (10_state.md R42). -/
def State.fbOut (s : State) : List Bool := (List.range 2048).map (FrameBuffer.flat s.fb)

/-- The output tone_out (R43). -/
def State.toneOut (s : State) : Bool := s.tone

/-- The state an instruction fetched at PC is executed in: the draw on rnd_in, no report yet, PC advanced by 2 modulo
65536 before execution (30_encoding.md R70). -/
def State.postFetch (s : State) (r : Draw) : State := { s with pc := s.pc + 2, rndIn := r, report := none }

/-- report_bad_opcode(op, addr) (10_state.md R44; log entry 19). -/
def State.reportBadOpcode (s : State) (op addr : Word) : State := { s with report := some ⟨op, addr⟩ }

/-- TICK(r) (30_encoding.md R70): fetch, advance PC, decode, execute one instruction; an unrecognised word is a no-op
with the report (R76). -/
def tick (r : Draw) (s : State) : Result :=
  match decode (s.fetch s.pc) with
  | .instr i => exec i (s.postFetch r)
  | .unrecognised _ => .next ((s.postFetch r).reportBadOpcode (s.fetch s.pc) s.pc)

/-- One event (R8). -/
def applyEvent (e : Event) (s : State) : Result :=
  match e with
  | .reset rom => resetEvent rom
  | .frameStart keys => .next (s.frameStart keys)
  | .tick r => tick r s
  | .frameEnd => .next s.frameEnd

/-- Any sequence of events, in any interleaving (R9: "a model that wants to claim something for every environment"). -/
def runEvents : List Event → State → Result
  | [], s => .next s
  | e :: es, s =>
    match applyEvent e s with
    | .next t => runEvents es t
    | .fault f => .fault f
    | .refused r => .refused r

/-- The event the environment sends next, by R9's order, with its free inputs (log entries 1, 3, 4). -/
def State.nextEvent (s : State) : Event :=
  match s.phase with
  | .frameStart => .frameStart (Config.keysIn s.frameNo)
  | .ticks 0 => .frameEnd
  | .ticks (_ + 1) => .tick (Config.rndIn s.tickNo)

/-- The environment's own bookkeeping for that event: FRAME_START, TICKS_PER_FRAME TICKs, FRAME_END, and again
(R9; log entry 2). -/
def State.advanceFrame (s : State) : State :=
  match s.phase with
  | .frameStart => { s with phase := .ticks Config.ticksPerFrame, frameNo := s.frameNo + 1 }
  | .ticks 0 => { s with phase := .frameStart }
  | .ticks (n + 1) => { s with phase := .ticks n, tickNo := s.tickNo + 1 }

/-- The place in the frame from which the very next step is a TICK. -/
def Phase.toTick : Phase → Phase
  | .ticks (n + 1) => .ticks (n + 1)
  | _ => .ticks 1

/-- The two bytes of an opcode stored where the next fetch reads them, and a TICK due next (log entry 12). -/
def State.placeWord (s : State) (hi lo : Byte) : State :=
  { (s.writeByte s.pc.toNat hi).writeByte (s.pc.toNat + 1) lo with phase := s.phase.toTick }

end Sys2Proof.Machine
end

