-- ==== Sys2Proof/Machine/Step.lean ====
section
/-! DEFINITION. One step is one event of the environment, in R9's order (00_scope.md R8, R9; log entry 1); and the
host's way to place an instruction (log entry 12). -/

namespace Sys2Proof.Machine

/-- One event. -/
def step (s : State) : Host.Outcome State Fault Refusal := applyEvent s.nextEvent s.advanceFrame

/-- `s` with a word of the opcode table where the next step fetches it. -/
def State.withFetchWord (s : State) (nbits w : Nat) : State :=
  match tableBytes nbits w with
  | hi :: lo :: _ => s.placeWord hi lo
  | _ => s

end Sys2Proof.Machine
end

