-- ==== Sys2Proof/Safety.lean ====
section
/-! DEFINITION. The terms the claims use: the invariant of reachable states (10_state.md R46), which pieces of state two
states agree on, which instruction writes what (R22), the sprite as a set of cells (43_display.md R148), the end of a
run (70_reset_and_hazards.md R246). -/

namespace Sys2Proof.Machine

/-- The invariant of every reachable state (R46): memory in its canonical form and I at most 0x0FFF. The other bounds of
R46 (SP at most 16, the widths of V, DT, ST and the FB cells) are carried by the types of State. -/
structure State.Inv (s : State) : Prop where
  memWf : s.mem.wf = true
  iBound : s.i.toNat ≤ 0x0FFF

/-! ### Agreement of two states -/

/-- Every general register reads the same, but for those listed. -/
def SameVBut (xs : List Reg) (s t : State) : Prop := ∀ r : Reg, r ∉ xs → t.getV r = s.getV r

/-- Every general register reads the same. -/
def SameV (s t : State) : Prop := ∀ r : Reg, t.getV r = s.getV r

/-- Every address reads the same byte. -/
def SameMem (s t : State) : Prop := ∀ a : Nat, t.readByte a = s.readByte a

/-- Every cell of the framebuffer is the same. -/
def SameFB (s t : State) : Prop :=
  ∀ px py : Nat, px < 64 → py < 32 → FrameBuffer.cell t.fb px py = FrameBuffer.cell s.fb px py

/-- The call stack is the same: SP and every cell. -/
def SameStack (s t : State) : Prop := t.sp = s.sp ∧ t.stack = s.stack

/-- The address register is the same. -/
def SameI (s t : State) : Prop := t.i = s.i

/-- Both timers are the same. -/
def SameTimers (s t : State) : Prop := t.dt = s.dt ∧ t.st = s.st

/-- What no instruction writes is the same: KEY and TONE (10_state.md R38, R39), the ports (R43, R44) and the model's own
fields. -/
def SameEnv (s t : State) : Prop :=
  t.key = s.key ∧ t.tone = s.tone ∧ t.report = s.report ∧ t.rndIn = s.rndIn ∧ t.phase = s.phase ∧
  t.frameNo = s.frameNo ∧ t.tickNo = s.tickNo

/-- Everything but V and PC is the same. -/
def SameButVAndPC (s t : State) : Prop :=
  SameMem s t ∧ SameFB s t ∧ SameStack s t ∧ SameI s t ∧ SameTimers s t ∧ SameEnv s t

/-- Everything but PC is the same. -/
def SameButPC (s t : State) : Prop := SameV s t ∧ SameButVAndPC s t

/-- Everything but the listed general registers is the same. -/
def SameBut (xs : List Reg) (s t : State) : Prop := SameVBut xs s t ∧ t.pc = s.pc ∧ SameButVAndPC s t

/-! ### Which instruction writes what (10_state.md R22, R23, R29) -/

/-- The numbered registers an instruction writes as results (the column V[x] of R22); a flag write is `setsFlag`. -/
def vWritten : Instr → List Reg
  | .ldImm x _ | .addImm x _ | .ldReg x _ | .orReg x _ | .andReg x _ | .xorReg x _ | .addReg x _ | .subReg x _
  | .shr x | .subn x _ | .shl x | .rnd x _ | .ldVxDT x => [x]
  | .loadRegs x => (List.range (x.toNat + 1)).map (BitVec.ofNat 4)
  | _ => []

/-- "The instructions that write VF as a flag" (R23). -/
def setsFlag : Instr → Bool
  | .addReg _ _ | .subReg _ _ | .shr _ | .subn _ _ | .shl _ | .drw _ _ _ | .addI _ => true
  | _ => false

/-- Annn, Fx1E, Fx29 (R24). -/
def writesI : Instr → Bool
  | .ldI _ | .addI _ | .ldF _ => true
  | _ => false

/-- Fx15 (R37). -/
def writesDT : Instr → Bool
  | .ldDTVx _ => true
  | _ => false

/-- Fx18 (R37). -/
def writesST : Instr → Bool
  | .ldSTVx _ => true
  | _ => false

/-- "Only CALL pushes and only RET pops" (R34). -/
def movesStack : Instr → Bool
  | .call _ | .ret => true
  | _ => false

/-- Fx33, Fx55 (R40). -/
def writesMem : Instr → Bool
  | .ldB _ | .storeRegs _ => true
  | _ => false

/-- 00E0, Dxyn (R31). -/
def writesFB : Instr → Bool
  | .cls | .drw _ _ _ => true
  | _ => false

/-- The instructions of R29 that may leave PC elsewhere than after themselves. -/
def movesPC : Instr → Bool
  | .ret | .jp _ | .call _ | .jpV0 _ | .seImm _ _ | .sneImm _ _ | .seReg _ _ | .sneReg _ _ | .skp _ | .sknp _
  | .ldVxK _ => true
  | _ => false

/-- The six skips (40_control_flow.md R100). -/
def isSkip : Instr → Bool
  | .seImm _ _ | .sneImm _ _ | .seReg _ _ | .sneReg _ _ | .skp _ | .sknp _ => true
  | _ => false

/-- The bits of a word the decoder looks at or takes as an operand (30_encoding.md R75): all but bits 11:8 of CLS and
RET, bits 3:0 of 5xy_ and 9xy_, and y of 8xy6 and 8xyE (log entry 13). -/
def usedBits : Instr → Word
  | .cls | .ret => 0xF0FF
  | .seReg _ _ | .sneReg _ _ => 0xFFF0
  | .shr _ | .shl _ => 0xFF0F
  | _ => 0xFFFF

/-- Ex9E, ExA1, Fx0A (R38). -/
def readsKeys : Instr → Bool
  | .skp _ | .sknp _ | .ldVxK _ => true
  | _ => false

/-! ### The sprite as a set of cells (43_display.md R146 to R149, R151) -/

/-- The sprite of `n` rows at (x0, y0) has a set bit at column px, row py: row py - y0 of the sprite, bit 7 leftmost. -/
def spriteBit (rows : Nat → Byte) (n x0 y0 px py : Nat) : Bool :=
  decide (x0 ≤ px ∧ px < x0 + 8 ∧ y0 ≤ py ∧ py < y0 + n) && (rows (py - y0)).getLsbD (7 - (px - x0))

/-- The cells of the framebuffer that DRW Vx, Vy, n in `s` inverts: sprite bytes at I, origin (V[x] mod 64,
V[y] mod 32). -/
def drwBit (s : State) (x y : Reg) (n : Nibble) (px py : Nat) : Bool :=
  spriteBit (fun r => s.readByte (s.i.toNat + r)) n.toNat ((s.getV x).toNat % 64) ((s.getV y).toNat % 32) px py

/-! ### The end of a run (70_reset_and_hazards.md R246) -/

/-- A jump to itself stands at PC (R246; log entry 25). -/
def State.ended (s : State) : Prop := s.pc.toNat ≤ 0x0FFF ∧ s.fetch s.pc = 0x1000#16 ||| s.pc

end Sys2Proof.Machine
end

