-- ==== Sys2Proof/WellFormed.lean ====
section
/-! DEFINITION. Which words are instructions, written from 30_encoding.md R76's list of the unrecognised words (the
decoder is written from R75's table: the two lists are independent statements of the spec). Every operand of an
`Instr` carries its range in its type (10_state.md R20), so a term can only be ill-formed as a word. -/

namespace Sys2Proof

/-- Group 0: only E0 and EE. -/
def wfGroup0 (w : Word) : Bool := kkField w == 0xE0 || kkField w == 0xEE
/-- Group 8: the low nibble is none of 8, 9, A, B, C, D, F. -/
def wfGroup8 (w : Word) : Bool := !([8, 9, 0xA, 0xB, 0xC, 0xD, 0xF] : List Nibble).contains (nField w)
/-- Group E: only 9E and A1. -/
def wfGroupE (w : Word) : Bool := kkField w == 0x9E || kkField w == 0xA1
/-- Group F: only the nine low bytes R76 names. -/
def wfGroupF (w : Word) : Bool :=
  ([0x07, 0x0A, 0x15, 0x18, 0x1E, 0x29, 0x33, 0x55, 0x65] : List Byte).contains (kkField w)

/-- The word is an instruction: it is none of R76's unrecognised words. -/
def wellFormedWord (w : Word) : Bool :=
  if opField w = 0x0 then wfGroup0 w
  else if opField w = 0x8 then wfGroup8 w
  else if opField w = 0xE then wfGroupE w
  else if opField w = 0xF then wfGroupF w
  else true

/-- An instruction is well-formed when the word that encodes it is an instruction word. -/
def Instr.wellFormed (i : Instr) : Bool := wellFormedWord (encode i)

end Sys2Proof
end

