-- ==== Sys2Proof/Certificates/Slice0/Obligations.lean ====
section
/-! DEFINITION. The statements for the provers, from the numbered rules of spec/. A docstring that names a log entry or
a decision D<n> says that the clause is the spec's own decision or the model's choice, not the source's words. -/

open Sys2Proof Sys2Proof.Machine

/-! ### Encoding -/

/-- Every instruction is well-formed and every operand of it, at every value, survives encode and decode (30_encoding.md
sections 2 and 4; field positions: log entry 22). -/
def Obligations.DecodeInvertsEncode : Prop :=
  ∀ i : Instr, i.wellFormed = true ∧ decode (encode i) = .instr i

/-- R71: one 16-bit word, two bytes, high byte first, whatever follows. -/
def Obligations.InstructionIsTwoBytesHighFirst : Prop :=
  ∀ (i : Instr) (rest : List Byte),
    (encodeBytes i).length = 2 ∧
    (∀ hi lo, encodeBytes i = [hi, lo] → (encode i).toNat = hi.toNat * 256 + lo.toNat) ∧
    decodeBytes (encodeBytes i ++ rest) = (.instr i, rest)

/-- The other direction (30_encoding.md section 4, D2, log entry 13): a word that decodes to an instruction selects that
instruction's row, and is that instruction's own word but for the bits the decoder ignores. -/
def Obligations.DecodedWordIsItsEncoding : Prop :=
  ∀ (w : Word) (i : Instr), decode w = .instr i →
    (rowOf i).selects w = true ∧ encode i = w &&& usedBits i

/-- The rows are pairwise disjoint: an instruction word selects exactly one, an unrecognised word none (30_encoding.md
sections 4 and 5, D2). -/
def Obligations.RowsPartitionTheWords : Prop :=
  ∀ w : Word, (opcodeRows.filter (fun r => r.selects w)).length = if wellFormedWord w then 1 else 0

/-- 30_encoding.md section 5: exactly the listed words are unrecognised (0nnn among them is decision D1, log entry 23), and
a tick that fetches one only advances PC by 2 and makes the report (rndIn, the model's own field, holds the tick's draw:
log entry 4). -/
def Obligations.UnrecognisedWordIsReportedNoOp : Prop :=
  ∀ (s : State) (r : Draw),
    (wellFormedWord (s.fetch s.pc) = false →
      ∃ t, tick r s = .next t ∧ t.pc = s.pc + 2 ∧ t.report.isSome = true ∧ SameV s t ∧ SameMem s t ∧ SameFB s t ∧
        SameStack s t ∧ SameI s t ∧ SameTimers s t ∧ t.key = s.key ∧ t.tone = s.tone) ∧
    (wellFormedWord (s.fetch s.pc) = true →
      ∃ i, decode (s.fetch s.pc) = .instr i ∧ tick r s = exec i (s.postFetch r))

/-- 10_state.md section 8 (D21, log entry 19): the report carries the opcode and the PC before the advance; a tick that
executes an instruction makes no report. -/
def Obligations.ReportCarriesOpcodeAndAddress : Prop :=
  ∀ (s t : State) (r : Draw), tick r s = .next t →
    t.report = if wellFormedWord (s.fetch s.pc) then none else some ⟨s.fetch s.pc, s.pc⟩

/-- 30_encoding.md section 5, the counts of unrecognised words: 254 low bytes for each x in groups 0 and E, 247 in group
F, 7 low nibbles for each x and y in group 8, none in any other group. -/
def Obligations.UnrecognisedWordCounts : Prop :=
  (∀ x : Nibble,
    ((List.range 256).filter (fun k => !wellFormedWord (0x0#4 ++ x ++ BitVec.ofNat 8 k))).length = 254 ∧
    ((List.range 256).filter (fun k => !wellFormedWord (0xE#4 ++ x ++ BitVec.ofNat 8 k))).length = 254 ∧
    ((List.range 256).filter (fun k => !wellFormedWord (0xF#4 ++ x ++ BitVec.ofNat 8 k))).length = 247) ∧
  (∀ x y : Nibble,
    ((List.range 16).filter (fun k => !wellFormedWord (0x8#4 ++ x ++ y ++ BitVec.ofNat 4 k))).length = 7) ∧
  (∀ (o x : Nibble) (kk : Byte), o ≠ 0x0 → o ≠ 0x8 → o ≠ 0xE → o ≠ 0xF → wellFormedWord (o ++ x ++ kk) = true)

/-- Words written out digit by digit from the decode table, one or two per group. -/
def Obligations.SampleWordsDecode : Prop :=
  decode 0x00E0 = .instr .cls ∧ decode 0x05EE = .instr .ret ∧ decode 0x1204 = .instr (.jp 0x204) ∧
  decode 0x2300 = .instr (.call 0x300) ∧ decode 0x3A05 = .instr (.seImm 0xA 0x05) ∧
  decode 0x5127 = .instr (.seReg 1 2) ∧ decode 0x8AB5 = .instr (.subReg 0xA 0xB) ∧
  decode 0x81FE = .instr (.shl 1) ∧ decode 0x8AB8 = .unrecognised (.group8 8) ∧ decode 0xB345 = .instr (.jpV0 0x345) ∧
  decode 0xC10A = .instr (.rnd 1 0x0A) ∧ decode 0xD12F = .instr (.drw 1 2 0xF) ∧ decode 0xE3A1 = .instr (.sknp 3) ∧
  decode 0xF20A = .instr (.ldVxK 2) ∧ decode 0xF255 = .instr (.storeRegs 2) ∧
  decode 0xF175 = .unrecognised (.groupF 0x75) ∧ decode 0x0123 = .unrecognised (.group0 0x23)

/-! ### Fetch, tick, step, events -/

/-- R52: each of the two byte addresses is masked on its own, the first byte is bits 15:8. -/
def Obligations.FetchIsBigEndianAndMasked : Prop :=
  ∀ (s : State) (a : Word), (s.fetch a).toNat =
    (s.mem.read (a.toNat % 4096)).toNat * 256 + (s.mem.read ((a.toNat + 1) % 4096)).toNat

/-- 30_encoding.md section 1: a step at a TICK runs the instruction that stands at PC, in the state whose PC is already
advanced by 2; for a word that is none it makes the report and changes nothing else. The draw, the report strobe, the
phase and tickNo are the model's own bookkeeping (log entries 1, 4, 19). -/
def Obligations.StepRunsTheDecodedInstruction : Prop :=
  ∀ (s : State) (n : Nat), s.phase = .ticks (n + 1) →
    (∀ i : Instr, decode (s.fetch s.pc) = .instr i →
      step s = exec i { s with pc := s.pc + 2, rndIn := Config.rndIn s.tickNo, report := none,
                               phase := .ticks n, tickNo := s.tickNo + 1 }) ∧
    (∀ why : Unrecognised, decode (s.fetch s.pc) = .unrecognised why →
      step s = .next { s with pc := s.pc + 2, rndIn := Config.rndIn s.tickNo, report := some ⟨s.fetch s.pc, s.pc⟩,
                              phase := .ticks n, tickNo := s.tickNo + 1 })

/-- 00_scope.md section 4, the environment's order (log entries 1, 2, 3, 4): from a FRAME_START that is due,
TICKS_PER_FRAME + 2 steps are FRAME_START with the frame's keys, TICKS_PER_FRAME TICKs with their draws in order, and
FRAME_END, and FRAME_START is due again; the steps differ from these events in the model's bookkeeping only, and the keys
are latched for the whole frame. -/
def Obligations.WholeFrameFollowsTheContract : Prop :=
  ∀ s : State, s.phase = .frameStart →
    ∃ t u : State, Host.Core.run Sys2Proof.core (Config.ticksPerFrame + 2) s = .next t ∧
      runEvents (Event.frameStart (Config.keysIn s.frameNo) ::
        ((List.range Config.ticksPerFrame).map (fun k => Event.tick (Config.rndIn (s.tickNo + k))) ++ [Event.frameEnd])) s
          = .next u ∧
      t = { u with phase := .frameStart, frameNo := s.frameNo + 1, tickNo := s.tickNo + Config.ticksPerFrame } ∧
      t.key = Config.keysIn s.frameNo

/-- R210: all 16 key flags are replaced, nothing else changes. -/
def Obligations.FrameStartReplacesTheKeys : Prop :=
  ∀ (s : State) (keys : BitVec 16), ∃ t, applyEvent (.frameStart keys) s = .next t ∧
    (∀ i : Nat, i < 16 → t.key.getLsbD i = keys.getLsbD i) ∧
    SameV s t ∧ t.pc = s.pc ∧ SameMem s t ∧ SameFB s t ∧ SameStack s t ∧ SameI s t ∧ SameTimers s t ∧
    t.tone = s.tone

/-- R211 and R212: the tone from ST before the countdown, then each timer down by 1 if it is greater than 0; nothing else
changes. -/
def Obligations.FrameEndSamplesThenCounts : Prop :=
  ∀ s : State, ∃ t, applyEvent .frameEnd s = .next t ∧ (t.tone = true ↔ s.st ≠ 0) ∧
    (0 < s.dt.toNat → t.dt.toNat + 1 = s.dt.toNat) ∧ (s.dt = 0 → t.dt = 0) ∧
    (0 < s.st.toNat → t.st.toNat + 1 = s.st.toNat) ∧ (s.st = 0 → t.st = 0) ∧
    SameV s t ∧ t.pc = s.pc ∧ SameMem s t ∧ SameFB s t ∧ SameStack s t ∧ SameI s t ∧ t.key = s.key

/-- 60_exceptions.md section 7: after k FRAME_ENDs each timer has lost min(k, its value), and the tone at the k-th is on
exactly when ST was at least k. -/
def Obligations.TimersCountDownOncePerFrame : Prop :=
  ∀ (s : State) (k : Nat), ∃ t, runEvents (List.replicate k .frameEnd) s = .next t ∧
    t.dt.toNat = s.dt.toNat - k ∧ t.st.toNat = s.st.toNat - k ∧ (0 < k → (t.tone = true ↔ k ≤ s.st.toNat)) ∧
    SameV s t ∧ t.pc = s.pc ∧ t.key = s.key

/-- R200: from every state, every instruction, every tick with every draw and every step answers a next state. -/
def Obligations.EveryTickCompletes : Prop :=
  (∀ (i : Instr) (s : State), ∃ t, exec i s = .next t) ∧
  (∀ (r : Draw) (s : State), ∃ t, tick r s = .next t) ∧ (∀ s : State, ∃ t, step s = .next t)

/-- 70_reset_and_hazards.md section 1: byte k of the ROM at 0x200 + k, the font at 0x050, 0 elsewhere, PC = 0x200. The
zeros are decision D15 (log entry 8), the font bytes D16 (log entry 9), the refusal of a longer ROM D17 (log entry 11). -/
def Obligations.ResetPlacesTheProgram : Prop :=
  ∀ (rom : List Byte) (s : State),
    (rom.length ≤ 3584 → ∃ t, applyEvent (.reset rom) s = .next t ∧ t.pc = 0x200 ∧
      (∀ (k : Nat) (h : k < rom.length), t.readByte (0x200 + k) = rom[k]) ∧
      (∀ k : Nat, k < 80 → t.readByte (0x050 + k) = font.getD k 0) ∧
      (∀ a : Nat, a < 4096 → ¬ (0x050 ≤ a ∧ a < 0x0A0) → ¬ (0x200 ≤ a ∧ a < 0x200 + rom.length) → t.readByte a = 0)) ∧
    (3584 < rom.length → applyEvent (.reset rom) s = .refused .romTooLong)

/-- 10_state.md section 5: the reset state. PC = 0x200 is the source's, every other value the spec's decision D15 (log
entry 8). -/
def Obligations.ResetClearsTheRest : Prop :=
  ∀ (rom : List Byte) (s : State), rom.length ≤ 3584 → ∃ t, applyEvent (.reset rom) s = .next t ∧
    (∀ r : Reg, t.getV r = 0) ∧ t.i = 0 ∧ t.pc = 0x200 ∧ (∀ i : Nat, i < 2048 → FrameBuffer.flat t.fb i = false) ∧
    (∀ k (h : k < 16), t.stack[k] = 0) ∧ t.sp.val = 0 ∧ t.dt = 0 ∧ t.st = 0 ∧ t.key = 0 ∧ t.tone = false

/-- The reset state meets the invariant. -/
def Obligations.ResetMeetsInvariant : Prop := State.reset.Inv

/-- 10_state.md section 10 (log entry 14): every step keeps memory in its canonical form and I at most 0x0FFF. -/
def Obligations.StepKeepsInvariant : Prop :=
  ∀ s t : State, s.Inv → step s = .next t → t.Inv

/-- The same for every sequence of events in any interleaving, RESET with any ROM among them. -/
def Obligations.EventSequencesKeepInvariant : Prop :=
  ∀ (es : List Event) (s t : State), s.Inv → runEvents es s = .next t → t.Inv

/-! ### Rules about every instruction -/

/-- 10_state.md sections 5 and 8: no instruction writes KEY, TONE, the ports or the model's own fields. -/
def Obligations.InstructionsLeaveInputsAlone : Prop :=
  ∀ (i : Instr) (s : State), ∃ t, exec i s = .next t ∧ SameEnv s t

/-- 10_state.md sections 1 and 2: an instruction writes only the registers its row names, and VF as a flag (then exactly
0 or 1) only if it is one of the seven. The flag's place after the result is D4 (log entry 15), VF kept by the logic
operations D5 (log entry 16), Fx0A writing no register D11 (log entry 17), VF written by every Fx1E D12 (log entry 18). -/
def Obligations.GeneralRegisterWriters : Prop :=
  ∀ (i : Instr) (s : State), ∃ t, exec i s = .next t ∧
    (∀ r : Reg, r ∉ vWritten i → (setsFlag i = true → r ≠ vf) → t.getV r = s.getV r) ∧
    (setsFlag i = true → t.getV vf = 0 ∨ t.getV vf = 1)

/-- 10_state.md sections 1, 3, 5: only Annn, Fx1E and Fx29 write I, only Fx15 DT, only Fx18 ST, only CALL and RET the
stack. -/
def Obligations.SpecialRegisterWriters : Prop :=
  ∀ (i : Instr) (s : State), ∃ t, exec i s = .next t ∧ (writesI i = false → SameI s t) ∧
    (writesDT i = false → t.dt = s.dt) ∧ (writesST i = false → t.st = s.st) ∧ (movesStack i = false → SameStack s t)

/-- 10_state.md sections 5 and 6: only Fx33 and Fx55 change memory, only 00E0 and Dxyn the framebuffer. -/
def Obligations.MemoryAndScreenWriters : Prop :=
  ∀ (i : Instr) (s : State), ∃ t, exec i s = .next t ∧ (writesMem i = false → SameMem s t) ∧
    (writesFB i = false → SameFB s t)

/-- 10_state.md section 4: an instruction outside the control transfers leaves PC at the post-fetch PC it was given; a
skip leaves it there or 2 on, the key-wait there or 2 back. -/
def Obligations.PcMoversAreControlTransfers : Prop :=
  ∀ (i : Instr) (s : State), ∃ t, exec i s = .next t ∧ (movesPC i = false → t.pc = s.pc) ∧
    (isSkip i = true → t.pc = s.pc ∨ t.pc = s.pc + 2) ∧ (∀ x, i = .ldVxK x → t.pc = s.pc ∨ t.pc = s.pc - 2)

/-- 10_state.md sections 5 and 7: no instruction reads ST or TONE: changing them changes nothing else of the result. -/
def Obligations.NoInstructionReadsSoundTimerOrTone : Prop :=
  ∀ (i : Instr) (s : State) (b : Byte) (c : Bool), ∃ t, exec i s = .next t ∧
    exec i { s with st := b, tone := c } = .next { t with st := if writesST i then t.st else b, tone := c }

/-- 42_random.md (D8, log entry 4): a tick that executes no Cxkk does not use the draw. -/
def Obligations.DrawMattersOnlyToRnd : Prop :=
  ∀ (s : State) (r r' : Draw), (∀ x kk, decode (s.fetch s.pc) ≠ .instr (.rnd x kk)) →
    ∃ t, tick r s = .next t ∧ t.rndIn = r ∧ tick r' s = .next { t with rndIn := r' }

/-- 10_state.md section 5: only Ex9E, ExA1 and Fx0A read KEY. -/
def Obligations.KeysReadOnlyByKeypadInstructions : Prop :=
  ∀ (i : Instr) (s : State) (keys : BitVec 16), readsKeys i = false →
    ∃ t, exec i s = .next t ∧ exec i { s with key := keys } = .next { t with key := keys }

/-! ### Control transfer. In every statement on exec, `s` holds the post-fetch PC. -/

/-- 40_control_flow.md, RET, and Pop of 10_state.md: the top entry, SP one lower and every cell left in place; with an
empty stack PC becomes 0 and SP stays 0. Bits 11:8 of the word are ignored (D2, log entry 13). -/
def Obligations.RetPopsIntoPc : Prop :=
  (∀ k : Nibble, decode (0x0#4 ++ k ++ 0xEE#8) = .instr .ret) ∧
  ∀ s : State, ∃ t, exec .ret s = .next t ∧
    (s.sp.val = 0 → t.pc = 0 ∧ t.sp.val = 0) ∧
    (∀ (k : Nat) (h : k < 16), s.sp.val = k + 1 → t.pc = s.stack[k] ∧ t.sp.val = k) ∧
    t.stack = s.stack ∧ SameV s t ∧ SameMem s t ∧ SameFB s t ∧ SameI s t ∧ SameTimers s t ∧ SameEnv s t

/-- R102. -/
def Obligations.JpSetsPc : Prop :=
  ∀ nnn : Addr, decode (0x1#4 ++ nnn) = .instr (.jp nnn) ∧
    ∀ s : State, ∃ t, exec (.jp nnn) s = .next t ∧ t.pc.toNat = nnn.toNat ∧ SameButPC s t

/-- R103 and R35: the post-fetch PC is pushed, all 16 bits of it, unless the stack is full: then the push is dropped and
no cell changes; the jump happens either way. -/
def Obligations.CallPushesAndJumps : Prop :=
  ∀ nnn : Addr, decode (0x2#4 ++ nnn) = .instr (.call nnn) ∧
    ∀ s : State, ∃ t, exec (.call nnn) s = .next t ∧ t.pc.toNat = nnn.toNat ∧
      (∀ (k : Nat) (h : k < 16), s.sp.val = k → t.sp.val = k + 1 ∧ t.stack[k] = s.pc ∧
        ∀ (j : Nat) (hj : j < 16), j ≠ k → t.stack[j] = s.stack[j]) ∧
      (s.sp.val = 16 → SameStack s t) ∧
      SameV s t ∧ SameMem s t ∧ SameFB s t ∧ SameI s t ∧ SameTimers s t ∧ SameEnv s t

/-- 40_control_flow.md sections 1 and 2: when the stack is not full, a RET right after a CALL comes back to the
instruction after the CALL with the stack as deep as before; when it is full, it goes to the newest kept address. -/
def Obligations.CallThenRetReturns : Prop :=
  ∀ (nnn : Addr) (s : State), ∃ t u, exec (.call nnn) s = .next t ∧ exec .ret t = .next u ∧
    (s.sp.val < 16 → u.pc = s.pc ∧ u.sp = s.sp) ∧ (s.sp.val = 16 → u.pc = s.stack[15] ∧ u.sp.val = 15) ∧
    SameV s u ∧ SameMem s u ∧ SameFB s u ∧ SameI s u ∧ SameTimers s u ∧ SameEnv s u

/-- 40_control_flow.md, JP V0 (D3, log entry 14): the sum is not masked. -/
def Obligations.JpV0AddsWithoutMask : Prop :=
  ∀ nnn : Addr, decode (0xB#4 ++ nnn) = .instr (.jpV0 nnn) ∧
    ∀ s : State, ∃ t, exec (.jpV0 nnn) s = .next t ∧ t.pc.toNat = nnn.toNat + (s.getV 0).toNat ∧ SameButPC s t

/-- R105 and R106. -/
def Obligations.ImmediateSkips : Prop :=
  ∀ (x : Reg) (kk : Byte),
    decode (0x3#4 ++ x ++ kk) = .instr (.seImm x kk) ∧ decode (0x4#4 ++ x ++ kk) = .instr (.sneImm x kk) ∧
    ∀ s : State,
      (∃ t, exec (.seImm x kk) s = .next t ∧ t.pc = (if s.getV x = kk then s.pc + 2 else s.pc) ∧ SameButPC s t) ∧
      (∃ t, exec (.sneImm x kk) s = .next t ∧ t.pc = (if s.getV x = kk then s.pc else s.pc + 2) ∧ SameButPC s t)

/-- 40_control_flow.md, SE and SNE on two registers; the low nibble of the word is ignored (D2, log entry 13). -/
def Obligations.RegisterSkips : Prop :=
  ∀ x y : Reg,
    (∀ n : Nibble, decode (0x5#4 ++ x ++ y ++ n) = .instr (.seReg x y) ∧
      decode (0x9#4 ++ x ++ y ++ n) = .instr (.sneReg x y)) ∧
    ∀ s : State,
      (∃ t, exec (.seReg x y) s = .next t ∧ t.pc = (if s.getV x = s.getV y then s.pc + 2 else s.pc) ∧ SameButPC s t) ∧
      (∃ t, exec (.sneReg x y) s = .next t ∧ t.pc = (if s.getV x = s.getV y then s.pc else s.pc + 2) ∧ SameButPC s t)

/-! ### Register load and ALU -/

/-- R121, R122 and R123: no flag is written; VF changes only as the destination, as data. -/
def Obligations.LoadsAndAddImmediate : Prop :=
  (∀ (x : Reg) (kk : Byte), decode (0x6#4 ++ x ++ kk) = .instr (.ldImm x kk) ∧
    decode (0x7#4 ++ x ++ kk) = .instr (.addImm x kk) ∧
    ∀ s : State,
      (∃ t, exec (.ldImm x kk) s = .next t ∧ t.getV x = kk ∧ SameBut [x] s t) ∧
      (∃ t, exec (.addImm x kk) s = .next t ∧ (t.getV x).toNat = ((s.getV x).toNat + kk.toNat) % 256 ∧
        SameBut [x] s t)) ∧
  (∀ x y : Reg, decode (0x8#4 ++ x ++ y ++ 0x0#4) = .instr (.ldReg x y) ∧
    ∀ s : State, ∃ t, exec (.ldReg x y) s = .next t ∧ t.getV x = s.getV y ∧ SameBut [x] s t)

/-- 41_alu.md, OR, AND, XOR: bit by bit; VF is unchanged unless it is the destination (D5, log entry 16). -/
def Obligations.LogicOperationsKeepVF : Prop :=
  ∀ x y : Reg,
    decode (0x8#4 ++ x ++ y ++ 0x1#4) = .instr (.orReg x y) ∧ decode (0x8#4 ++ x ++ y ++ 0x2#4) = .instr (.andReg x y) ∧
    decode (0x8#4 ++ x ++ y ++ 0x3#4) = .instr (.xorReg x y) ∧
    ∀ s : State,
      (∃ t, exec (.orReg x y) s = .next t ∧
        (∀ b : Nat, (t.getV x).getLsbD b = ((s.getV x).getLsbD b || (s.getV y).getLsbD b)) ∧ SameBut [x] s t) ∧
      (∃ t, exec (.andReg x y) s = .next t ∧
        (∀ b : Nat, (t.getV x).getLsbD b = ((s.getV x).getLsbD b && (s.getV y).getLsbD b)) ∧ SameBut [x] s t) ∧
      (∃ t, exec (.xorReg x y) s = .next t ∧
        (∀ b : Nat, (t.getV x).getLsbD b = ((s.getV x).getLsbD b ^^ (s.getV y).getLsbD b)) ∧ SameBut [x] s t)

/-- 41_alu.md, ADD Vx, Vy: the low 8 bits of the sum to V[x], its bit 8 to VF, which is what VF holds also when x is 15
(D4, log entry 15). -/
def Obligations.AddRegisterSetsCarry : Prop :=
  ∀ x y : Reg, decode (0x8#4 ++ x ++ y ++ 0x4#4) = .instr (.addReg x y) ∧
    ∀ s : State, ∃ t, exec (.addReg x y) s = .next t ∧
      (x ≠ vf → (t.getV x).toNat = ((s.getV x).toNat + (s.getV y).toNat) % 256) ∧
      t.getV vf = (if (s.getV x).toNat + (s.getV y).toNat > 255 then 1 else 0) ∧ SameBut [x, vf] s t

/-- 41_alu.md, SUB and SUBN: VF is 1 when no borrow is needed, equality included (D6, log entry 16), and is what VF holds
also when x is 15 (D4, log entry 15). -/
def Obligations.SubtractionsSetNotBorrow : Prop :=
  ∀ x y : Reg, decode (0x8#4 ++ x ++ y ++ 0x5#4) = .instr (.subReg x y) ∧
    decode (0x8#4 ++ x ++ y ++ 0x7#4) = .instr (.subn x y) ∧
    ∀ s : State,
      (∃ t, exec (.subReg x y) s = .next t ∧
        (x ≠ vf → (t.getV x).toNat = ((s.getV x).toNat + 256 - (s.getV y).toNat) % 256) ∧
        t.getV vf = (if (s.getV y).toNat ≤ (s.getV x).toNat then 1 else 0) ∧ SameBut [x, vf] s t) ∧
      (∃ t, exec (.subn x y) s = .next t ∧
        (x ≠ vf → (t.getV x).toNat = ((s.getV y).toNat + 256 - (s.getV x).toNat) % 256) ∧
        t.getV vf = (if (s.getV x).toNat ≤ (s.getV y).toNat then 1 else 0) ∧ SameBut [x, vf] s t)

/-- 41_alu.md, SHR and SHL: by one position, only on V[x]; the y field is ignored (D2, log entry 13); VF is the bit shifted
out, also when x is 15 (D4, log entry 15). -/
def Obligations.ShiftsSetTheBitShiftedOut : Prop :=
  ∀ x : Reg, (∀ y : Nibble, decode (0x8#4 ++ x ++ y ++ 0x6#4) = .instr (.shr x) ∧
      decode (0x8#4 ++ x ++ y ++ 0xE#4) = .instr (.shl x)) ∧
    ∀ s : State,
      (∃ t, exec (.shr x) s = .next t ∧ (x ≠ vf → (t.getV x).toNat = (s.getV x).toNat / 2) ∧
        t.getV vf = (if (s.getV x).getLsbD 0 then 1 else 0) ∧ SameBut [x, vf] s t) ∧
      (∃ t, exec (.shl x) s = .next t ∧ (x ≠ vf → (t.getV x).toNat = (s.getV x).toNat * 2 % 256) ∧
        t.getV vf = (if (s.getV x).getLsbD 7 then 1 else 0) ∧ SameBut [x, vf] s t)

/-- 41_alu.md section 1, the arithmetic laws: in exact arithmetic nothing is lost between the result and the flag (when x is
15 the flag replaces the result: D4, log entry 15; on equal operands no borrow: D6, log entry 16), and the flag is exactly
0 or 1. -/
def Obligations.AluResultAndFlagAreExact : Prop :=
  ∀ (x y : Reg) (s : State),
    (∃ t, exec (.addReg x y) s = .next t ∧ (t.getV vf).toNat ≤ 1 ∧
      (x ≠ vf → (s.getV x).toNat + (s.getV y).toNat = 256 * (t.getV vf).toNat + (t.getV x).toNat)) ∧
    (∃ t, exec (.subReg x y) s = .next t ∧ (t.getV vf).toNat ≤ 1 ∧
      (x ≠ vf → (s.getV x).toNat + 256 = (s.getV y).toNat + 256 * (t.getV vf).toNat + (t.getV x).toNat)) ∧
    (∃ t, exec (.subn x y) s = .next t ∧ (t.getV vf).toNat ≤ 1 ∧
      (x ≠ vf → (s.getV y).toNat + 256 = (s.getV x).toNat + 256 * (t.getV vf).toNat + (t.getV x).toNat)) ∧
    (∃ t, exec (.shr x) s = .next t ∧ (t.getV vf).toNat ≤ 1 ∧
      (x ≠ vf → (s.getV x).toNat = 2 * (t.getV x).toNat + (t.getV vf).toNat)) ∧
    (∃ t, exec (.shl x) s = .next t ∧ (t.getV vf).toNat ≤ 1 ∧
      (x ≠ vf → 2 * (s.getV x).toNat = 256 * (t.getV vf).toNat + (t.getV x).toNat))

/-! ### Random, display, keypad -/

/-- R140, for kk at least 1: the draw, 1 to 255, modulo kk; the old V[x] is no operand. -/
def Obligations.RndWritesTheRemainder : Prop :=
  ∀ (x : Reg) (kk : Byte), decode (0xC#4 ++ x ++ kk) = .instr (.rnd x kk) ∧
    (kk ≠ 0 → ∀ s : State, ∃ t, exec (.rnd x kk) s = .next t ∧
      (t.getV x).toNat = (s.rndIn.val + 1) % kk.toNat ∧ (t.getV x).toNat < kk.toNat ∧ SameBut [x] s t)

/-- 42_random.md, the zero immediate: the source calls it undefined, the spec's decision D7 writes 0 (log entry 5). -/
def Obligations.RndZeroImmediateWritesZero : Prop :=
  ∀ (x : Reg) (s : State), ∃ t, exec (.rnd x 0) s = .next t ∧ t.getV x = 0 ∧ SameBut [x] s t

/-- 43_display.md, CLS; bits 11:8 of the word are ignored (D2, log entry 13). -/
def Obligations.ClsClearsTheFramebuffer : Prop :=
  (∀ k : Nibble, decode (0x0#4 ++ k ++ 0xE0#8) = .instr .cls) ∧
  ∀ s : State, ∃ t, exec .cls s = .next t ∧ (∀ j : Nat, j < 2048 → FrameBuffer.flat t.fb j = false) ∧ t.pc = s.pc ∧
    SameV s t ∧ SameMem s t ∧ SameI s t ∧ SameStack s t ∧ SameTimers s t ∧ SameEnv s t

/-- 43_display.md, DRW as a property of cells: exactly the cells inside the framebuffer under a set sprite bit are
inverted, and VF is the OR of their values before. Clipping is D9 (log entry 6), the sprite at I with bit 7 leftmost D10
and D25 (log entry 7), the reads before VF is written D4 (log entry 15). -/
def Obligations.DrwInvertsTheSpriteCells : Prop :=
  ∀ (x y : Reg) (n : Nibble), decode (0xD#4 ++ x ++ y ++ n) = .instr (.drw x y n) ∧
    ∀ s : State, ∃ t, exec (.drw x y n) s = .next t ∧
      (∀ px py : Nat, px < 64 → py < 32 →
        FrameBuffer.cell t.fb px py = (FrameBuffer.cell s.fb px py ^^ drwBit s x y n px py)) ∧
      ((∃ px py : Nat, px < 64 ∧ py < 32 ∧ drwBit s x y n px py = true ∧ FrameBuffer.cell s.fb px py = true) →
        t.getV vf = 1) ∧
      ((∀ px py : Nat, px < 64 → py < 32 → drwBit s x y n px py = true → FrameBuffer.cell s.fb px py = false) →
        t.getV vf = 0) ∧
      SameVBut [vf] s t ∧ t.pc = s.pc ∧ SameMem s t ∧ SameI s t ∧ SameStack s t ∧ SameTimers s t ∧ SameEnv s t

/-- 43_display.md, the collision detector: drawing twice at the same origin restores the framebuffer; the second VF is 1
exactly when some cell the sprite sets was off before the first (log entry 27: the spec's sentence says it without that
condition, which holds on a cleared framebuffer). -/
def Obligations.DrwTwiceRestoresTheFramebuffer : Prop :=
  ∀ (x y : Reg) (n : Nibble) (s : State), x ≠ vf → y ≠ vf →
    ∃ t u, exec (.drw x y n) s = .next t ∧ exec (.drw x y n) t = .next u ∧ SameFB s u ∧
      (u.getV vf = 1 ↔
        ∃ px py : Nat, px < 64 ∧ py < 32 ∧ drwBit s x y n px py = true ∧ FrameBuffer.cell s.fb px py = false)

/-- R160, R161 and R162: the key is named by the low 4 bits of V[x]. -/
def Obligations.KeySkips : Prop :=
  ∀ x : Reg, decode (0xE#4 ++ x ++ 0x9E#8) = .instr (.skp x) ∧ decode (0xE#4 ++ x ++ 0xA1#8) = .instr (.sknp x) ∧
    ∀ s : State,
      (∃ t, exec (.skp x) s = .next t ∧
        t.pc = (if s.key.getLsbD ((s.getV x).toNat % 16) then s.pc + 2 else s.pc) ∧ SameButPC s t) ∧
      (∃ t, exec (.sknp x) s = .next t ∧
        t.pc = (if s.key.getLsbD ((s.getV x).toNat % 16) then s.pc else s.pc + 2) ∧ SameButPC s t)

/-- 44_keypad.md, the key-wait: it waits for the key V[x] names and writes no register (D11, log entry 17); the rewind is
modulo 65536. -/
def Obligations.KeyWaitRewindsOrPasses : Prop :=
  ∀ x : Reg, decode (0xF#4 ++ x ++ 0x0A#8) = .instr (.ldVxK x) ∧
    ∀ s : State, ∃ t, exec (.ldVxK x) s = .next t ∧
      t.pc = (if s.key.getLsbD ((s.getV x).toNat % 16) then s.pc else s.pc - 2) ∧ SameButPC s t

/-- 44_keypad.md, the key-wait: while the key stays up, any number of ticks leaves PC on the instruction and changes
nothing (D11, log entry 17). -/
def Obligations.KeyWaitSpinsWhileTheKeyIsUp : Prop :=
  ∀ (s : State) (x : Reg) (draws : List Draw), decode (s.fetch s.pc) = .instr (.ldVxK x) →
    s.key.getLsbD ((s.getV x).toNat % 16) = false →
    ∃ t, runEvents (draws.map .tick) s = .next t ∧ t.pc = s.pc ∧ SameV s t ∧ SameMem s t ∧ SameFB s t ∧ SameStack s t ∧
      SameI s t ∧ SameTimers s t ∧ t.key = s.key ∧ t.tone = s.tone

/-! ### Address register, timers, memory -/

/-- R170. -/
def Obligations.LdISetsTheAddressRegister : Prop :=
  ∀ nnn : Addr, decode (0xA#4 ++ nnn) = .instr (.ldI nnn) ∧
    ∀ s : State, ∃ t, exec (.ldI nnn) s = .next t ∧ t.i.toNat = nnn.toNat ∧ SameV s t ∧ t.pc = s.pc ∧ SameMem s t ∧
      SameFB s t ∧ SameStack s t ∧ SameTimers s t ∧ SameEnv s t

/-- 45_timers_index_memory.md, LD F: the whole value of V[x], no nibble mask (D13, log entry 18). -/
def Obligations.LdFPointsAtTheGlyph : Prop :=
  ∀ x : Reg, decode (0xF#4 ++ x ++ 0x29#8) = .instr (.ldF x) ∧
    ∀ s : State, ∃ t, exec (.ldF x) s = .next t ∧ t.i.toNat = 0x50 + 5 * (s.getV x).toNat ∧ SameV s t ∧ t.pc = s.pc ∧
      SameMem s t ∧ SameFB s t ∧ SameStack s t ∧ SameTimers s t ∧ SameEnv s t

/-- R171, R172 and R173: DT is one lower after the next FRAME_END, and a value v in ST gives tone at
the next v FRAME_ENDs. -/
def Obligations.TimerMoves : Prop :=
  ∀ x : Reg, decode (0xF#4 ++ x ++ 0x07#8) = .instr (.ldVxDT x) ∧ decode (0xF#4 ++ x ++ 0x15#8) = .instr (.ldDTVx x) ∧
    decode (0xF#4 ++ x ++ 0x18#8) = .instr (.ldSTVx x) ∧
    ∀ s : State,
      (∃ t, exec (.ldVxDT x) s = .next t ∧ t.getV x = s.dt ∧ SameBut [x] s t) ∧
      (∃ t, exec (.ldDTVx x) s = .next t ∧ t.dt = s.getV x ∧ t.frameEnd.dt.toNat = (s.getV x).toNat - 1 ∧
        t.st = s.st ∧ SameV s t ∧ t.pc = s.pc ∧ SameMem s t ∧ SameFB s t ∧ SameStack s t ∧ SameI s t ∧ SameEnv s t) ∧
      (∃ t, exec (.ldSTVx x) s = .next t ∧ t.st = s.getV x ∧
        (∀ k : Nat, ∃ u, runEvents (List.replicate (k + 1) .frameEnd) t = .next u ∧
          (u.tone = true ↔ k + 1 ≤ (s.getV x).toNat)) ∧
        t.dt = s.dt ∧ SameV s t ∧ t.pc = s.pc ∧ SameMem s t ∧ SameFB s t ∧ SameStack s t ∧ SameI s t ∧ SameEnv s t)

/-- 45_timers_index_memory.md, ADD I: the low 12 bits of the sum, and VF from the unmasked sum, 0 when it does not exceed
0x0FFF (D12, log entry 18); x = 15 adds the old VF (D4, log entry 15). -/
def Obligations.AddIMasksAndFlags : Prop :=
  ∀ x : Reg, decode (0xF#4 ++ x ++ 0x1E#8) = .instr (.addI x) ∧
    ∀ s : State, ∃ t, exec (.addI x) s = .next t ∧ t.i.toNat = (s.i.toNat + (s.getV x).toNat) % 4096 ∧
      t.getV vf = (if s.i.toNat + (s.getV x).toNat > 0x0FFF then 1 else 0) ∧ SameVBut [vf] s t ∧ t.pc = s.pc ∧
      SameMem s t ∧ SameFB s t ∧ SameStack s t ∧ SameTimers s t ∧ SameEnv s t

/-- R176: hundreds, tens, ones at I, I + 1, I + 2, each address masked; every other byte is unchanged. -/
def Obligations.LdBStoresTheDigits : Prop :=
  ∀ x : Reg, decode (0xF#4 ++ x ++ 0x33#8) = .instr (.ldB x) ∧
    ∀ s : State, s.mem.wf = true → ∃ t, exec (.ldB x) s = .next t ∧
      (t.readByte (s.effAddr 0)).toNat = (s.getV x).toNat / 100 ∧
      (t.readByte (s.effAddr 1)).toNat = (s.getV x).toNat / 10 % 10 ∧
      (t.readByte (s.effAddr 2)).toNat = (s.getV x).toNat % 10 ∧
      (∀ a : Nat, (∀ k : Nat, k < 3 → maskAddr a ≠ maskAddr (s.effAddr k)) → t.readByte a = s.readByte a) ∧
      SameV s t ∧ t.pc = s.pc ∧ SameI s t ∧ SameFB s t ∧ SameStack s t ∧ SameTimers s t ∧ SameEnv s t

/-- 45_timers_index_memory.md, LD [I], Vx: V[k] at I + k for k from 0 to x, each address masked; every other byte is
unchanged, and so is I (D14, log entry 18). -/
def Obligations.StoreRegsStoresTheBlock : Prop :=
  ∀ x : Reg, decode (0xF#4 ++ x ++ 0x55#8) = .instr (.storeRegs x) ∧
    ∀ s : State, s.mem.wf = true → ∃ t, exec (.storeRegs x) s = .next t ∧
      (∀ r : Reg, r.toNat ≤ x.toNat → t.readByte (s.effAddr r.toNat) = s.getV r) ∧
      (∀ a : Nat, (∀ k : Nat, k ≤ x.toNat → maskAddr a ≠ maskAddr (s.effAddr k)) → t.readByte a = s.readByte a) ∧
      SameV s t ∧ t.pc = s.pc ∧ SameI s t ∧ SameFB s t ∧ SameStack s t ∧ SameTimers s t ∧ SameEnv s t

/-- 45_timers_index_memory.md, LD Vx, [I]: V[k] from I + k for k from 0 to x; registers above x are unchanged, and so is I
(D14, log entry 18). -/
def Obligations.LoadRegsLoadsTheBlock : Prop :=
  ∀ x : Reg, decode (0xF#4 ++ x ++ 0x65#8) = .instr (.loadRegs x) ∧
    ∀ s : State, ∃ t, exec (.loadRegs x) s = .next t ∧
      (∀ r : Reg, r.toNat ≤ x.toNat → t.getV r = s.readByte (s.i.toNat + r.toNat)) ∧
      (∀ r : Reg, x.toNat < r.toNat → t.getV r = s.getV r) ∧ t.pc = s.pc ∧ SameButVAndPC s t

/-- 45_timers_index_memory.md: what Fx55 stored, Fx65 loads back, whatever was in the registers between. -/
def Obligations.StoreThenLoadRestores : Prop :=
  ∀ (x : Reg) (s : State) (between : Vector Byte 16), s.mem.wf = true →
    ∃ t u, exec (.storeRegs x) s = .next t ∧ exec (.loadRegs x) { t with v := between } = .next u ∧
      ∀ r : Reg, r.toNat ≤ x.toNat → u.getV r = s.getV r

/-- 20_memory.md section 7 (D22, log entry 24): every byte that Fx55 or Fx33 stores is what the very next fetch reads: the
high byte of the fetch at its address, the low byte of the fetch at the address one below, modulo 4096. -/
def Obligations.StoredBytesAreFetchedNext : Prop :=
  ∀ (x : Reg) (s : State), s.mem.wf = true →
    (∃ t, exec (.storeRegs x) s = .next t ∧ ∀ (r : Reg) (a : Word), r.toNat ≤ x.toNat →
      (maskAddr a.toNat = maskAddr (s.effAddr r.toNat) → hiByte (t.fetch a) = s.getV r) ∧
      (maskAddr (a.toNat + 1) = maskAddr (s.effAddr r.toNat) → loByte (t.fetch a) = s.getV r)) ∧
    (∃ t, exec (.ldB x) s = .next t ∧ ∀ (k : Nat) (a : Word), k < 3 →
      (maskAddr a.toNat = maskAddr (s.effAddr k) →
        (hiByte (t.fetch a)).toNat = (s.getV x).toNat / 10 ^ (2 - k) % 10) ∧
      (maskAddr (a.toNat + 1) = maskAddr (s.effAddr k) →
        (loByte (t.fetch a)).toNat = (s.getV x).toNat / 10 ^ (2 - k) % 10))

/-- 70_reset_and_hazards.md section 3 (D20, log entry 25): once a jump to itself stands at PC, no event but RESET changes
V, I, MEM, FB, the stack or PC. -/
def Obligations.JumpToSelfFreezesTheProgram : Prop :=
  ∀ (es : List Event) (s : State), s.ended → (∀ rom, Event.reset rom ∉ es) →
    ∃ t, runEvents es s = .next t ∧ t.ended ∧ t.pc = s.pc ∧ SameV s t ∧ SameI s t ∧ SameMem s t ∧ SameFB s t ∧
      SameStack s t

/-! ### The steps between the ticks -/

/-- 00_scope.md section 4 and 60_exceptions.md section 6: the step in which FRAME_START is due latches the keys and
nothing else; the step in which FRAME_END is due samples the tone and then counts the timers, and nothing else. The keys'
source, phase and frameNo are the model's own bookkeeping (log entries 1, 2, 3); TONE as a register is D23 (log entry
20). -/
def Obligations.StepAtAFrameBoundary : Prop :=
  ∀ s : State,
    (s.phase = .frameStart →
      step s = .next { s with key := Config.keysIn s.frameNo, phase := .ticks Config.ticksPerFrame,
                              frameNo := s.frameNo + 1 }) ∧
    (s.phase = .ticks 0 → ∃ t, step s = .next t ∧
      (t.tone = true ↔ s.st ≠ 0) ∧ t.dt.toNat = s.dt.toNat - 1 ∧ t.st.toNat = s.st.toNat - 1 ∧
      t = { s with tone := t.tone, dt := t.dt, st := t.st, phase := .frameStart })
end

