-- ==== Sys2Proof/Laws/State.lean ====
section
/-! SUPPORT. One lemma per field per update of State, each true by rfl, so that no later proof unfolds a record update. -/

namespace Sys2Proof.Machine

/-! ### setV -/

@[simp] theorem State.setV_v (s : State) (x : Reg) (val : Byte) : (s.setV x val).v = s.v.set x.toNat val x.isLt := rfl
@[simp] theorem State.setV_i (s : State) (x : Reg) (val : Byte) : (s.setV x val).i = s.i := rfl
@[simp] theorem State.setV_pc (s : State) (x : Reg) (val : Byte) : (s.setV x val).pc = s.pc := rfl
@[simp] theorem State.setV_mem (s : State) (x : Reg) (val : Byte) : (s.setV x val).mem = s.mem := rfl
@[simp] theorem State.setV_fb (s : State) (x : Reg) (val : Byte) : (s.setV x val).fb = s.fb := rfl
@[simp] theorem State.setV_stack (s : State) (x : Reg) (val : Byte) : (s.setV x val).stack = s.stack := rfl
@[simp] theorem State.setV_sp (s : State) (x : Reg) (val : Byte) : (s.setV x val).sp = s.sp := rfl
@[simp] theorem State.setV_dt (s : State) (x : Reg) (val : Byte) : (s.setV x val).dt = s.dt := rfl
@[simp] theorem State.setV_st (s : State) (x : Reg) (val : Byte) : (s.setV x val).st = s.st := rfl
@[simp] theorem State.setV_key (s : State) (x : Reg) (val : Byte) : (s.setV x val).key = s.key := rfl
@[simp] theorem State.setV_tone (s : State) (x : Reg) (val : Byte) : (s.setV x val).tone = s.tone := rfl
@[simp] theorem State.setV_report (s : State) (x : Reg) (val : Byte) : (s.setV x val).report = s.report := rfl
@[simp] theorem State.setV_rndIn (s : State) (x : Reg) (val : Byte) : (s.setV x val).rndIn = s.rndIn := rfl
@[simp] theorem State.setV_phase (s : State) (x : Reg) (val : Byte) : (s.setV x val).phase = s.phase := rfl
@[simp] theorem State.setV_frameNo (s : State) (x : Reg) (val : Byte) : (s.setV x val).frameNo = s.frameNo := rfl
@[simp] theorem State.setV_tickNo (s : State) (x : Reg) (val : Byte) : (s.setV x val).tickNo = s.tickNo := rfl

/-! ### setI -/

@[simp] theorem State.setI_v (s : State) (w : Word) : (s.setI w).v = s.v := rfl
@[simp] theorem State.setI_i (s : State) (w : Word) : (s.setI w).i = w := rfl
@[simp] theorem State.setI_pc (s : State) (w : Word) : (s.setI w).pc = s.pc := rfl
@[simp] theorem State.setI_mem (s : State) (w : Word) : (s.setI w).mem = s.mem := rfl
@[simp] theorem State.setI_fb (s : State) (w : Word) : (s.setI w).fb = s.fb := rfl
@[simp] theorem State.setI_stack (s : State) (w : Word) : (s.setI w).stack = s.stack := rfl
@[simp] theorem State.setI_sp (s : State) (w : Word) : (s.setI w).sp = s.sp := rfl
@[simp] theorem State.setI_dt (s : State) (w : Word) : (s.setI w).dt = s.dt := rfl
@[simp] theorem State.setI_st (s : State) (w : Word) : (s.setI w).st = s.st := rfl
@[simp] theorem State.setI_key (s : State) (w : Word) : (s.setI w).key = s.key := rfl
@[simp] theorem State.setI_tone (s : State) (w : Word) : (s.setI w).tone = s.tone := rfl
@[simp] theorem State.setI_report (s : State) (w : Word) : (s.setI w).report = s.report := rfl
@[simp] theorem State.setI_rndIn (s : State) (w : Word) : (s.setI w).rndIn = s.rndIn := rfl
@[simp] theorem State.setI_phase (s : State) (w : Word) : (s.setI w).phase = s.phase := rfl
@[simp] theorem State.setI_frameNo (s : State) (w : Word) : (s.setI w).frameNo = s.frameNo := rfl
@[simp] theorem State.setI_tickNo (s : State) (w : Word) : (s.setI w).tickNo = s.tickNo := rfl

/-! ### setPC -/

@[simp] theorem State.setPC_v (s : State) (w : Word) : (s.setPC w).v = s.v := rfl
@[simp] theorem State.setPC_i (s : State) (w : Word) : (s.setPC w).i = s.i := rfl
@[simp] theorem State.setPC_pc (s : State) (w : Word) : (s.setPC w).pc = w := rfl
@[simp] theorem State.setPC_mem (s : State) (w : Word) : (s.setPC w).mem = s.mem := rfl
@[simp] theorem State.setPC_fb (s : State) (w : Word) : (s.setPC w).fb = s.fb := rfl
@[simp] theorem State.setPC_stack (s : State) (w : Word) : (s.setPC w).stack = s.stack := rfl
@[simp] theorem State.setPC_sp (s : State) (w : Word) : (s.setPC w).sp = s.sp := rfl
@[simp] theorem State.setPC_dt (s : State) (w : Word) : (s.setPC w).dt = s.dt := rfl
@[simp] theorem State.setPC_st (s : State) (w : Word) : (s.setPC w).st = s.st := rfl
@[simp] theorem State.setPC_key (s : State) (w : Word) : (s.setPC w).key = s.key := rfl
@[simp] theorem State.setPC_tone (s : State) (w : Word) : (s.setPC w).tone = s.tone := rfl
@[simp] theorem State.setPC_report (s : State) (w : Word) : (s.setPC w).report = s.report := rfl
@[simp] theorem State.setPC_rndIn (s : State) (w : Word) : (s.setPC w).rndIn = s.rndIn := rfl
@[simp] theorem State.setPC_phase (s : State) (w : Word) : (s.setPC w).phase = s.phase := rfl
@[simp] theorem State.setPC_frameNo (s : State) (w : Word) : (s.setPC w).frameNo = s.frameNo := rfl
@[simp] theorem State.setPC_tickNo (s : State) (w : Word) : (s.setPC w).tickNo = s.tickNo := rfl

/-! ### setDT -/

@[simp] theorem State.setDT_v (s : State) (val : Byte) : (s.setDT val).v = s.v := rfl
@[simp] theorem State.setDT_i (s : State) (val : Byte) : (s.setDT val).i = s.i := rfl
@[simp] theorem State.setDT_pc (s : State) (val : Byte) : (s.setDT val).pc = s.pc := rfl
@[simp] theorem State.setDT_mem (s : State) (val : Byte) : (s.setDT val).mem = s.mem := rfl
@[simp] theorem State.setDT_fb (s : State) (val : Byte) : (s.setDT val).fb = s.fb := rfl
@[simp] theorem State.setDT_stack (s : State) (val : Byte) : (s.setDT val).stack = s.stack := rfl
@[simp] theorem State.setDT_sp (s : State) (val : Byte) : (s.setDT val).sp = s.sp := rfl
@[simp] theorem State.setDT_dt (s : State) (val : Byte) : (s.setDT val).dt = val := rfl
@[simp] theorem State.setDT_st (s : State) (val : Byte) : (s.setDT val).st = s.st := rfl
@[simp] theorem State.setDT_key (s : State) (val : Byte) : (s.setDT val).key = s.key := rfl
@[simp] theorem State.setDT_tone (s : State) (val : Byte) : (s.setDT val).tone = s.tone := rfl
@[simp] theorem State.setDT_report (s : State) (val : Byte) : (s.setDT val).report = s.report := rfl
@[simp] theorem State.setDT_rndIn (s : State) (val : Byte) : (s.setDT val).rndIn = s.rndIn := rfl
@[simp] theorem State.setDT_phase (s : State) (val : Byte) : (s.setDT val).phase = s.phase := rfl
@[simp] theorem State.setDT_frameNo (s : State) (val : Byte) : (s.setDT val).frameNo = s.frameNo := rfl
@[simp] theorem State.setDT_tickNo (s : State) (val : Byte) : (s.setDT val).tickNo = s.tickNo := rfl

/-! ### setST -/

@[simp] theorem State.setST_v (s : State) (val : Byte) : (s.setST val).v = s.v := rfl
@[simp] theorem State.setST_i (s : State) (val : Byte) : (s.setST val).i = s.i := rfl
@[simp] theorem State.setST_pc (s : State) (val : Byte) : (s.setST val).pc = s.pc := rfl
@[simp] theorem State.setST_mem (s : State) (val : Byte) : (s.setST val).mem = s.mem := rfl
@[simp] theorem State.setST_fb (s : State) (val : Byte) : (s.setST val).fb = s.fb := rfl
@[simp] theorem State.setST_stack (s : State) (val : Byte) : (s.setST val).stack = s.stack := rfl
@[simp] theorem State.setST_sp (s : State) (val : Byte) : (s.setST val).sp = s.sp := rfl
@[simp] theorem State.setST_dt (s : State) (val : Byte) : (s.setST val).dt = s.dt := rfl
@[simp] theorem State.setST_st (s : State) (val : Byte) : (s.setST val).st = val := rfl
@[simp] theorem State.setST_key (s : State) (val : Byte) : (s.setST val).key = s.key := rfl
@[simp] theorem State.setST_tone (s : State) (val : Byte) : (s.setST val).tone = s.tone := rfl
@[simp] theorem State.setST_report (s : State) (val : Byte) : (s.setST val).report = s.report := rfl
@[simp] theorem State.setST_rndIn (s : State) (val : Byte) : (s.setST val).rndIn = s.rndIn := rfl
@[simp] theorem State.setST_phase (s : State) (val : Byte) : (s.setST val).phase = s.phase := rfl
@[simp] theorem State.setST_frameNo (s : State) (val : Byte) : (s.setST val).frameNo = s.frameNo := rfl
@[simp] theorem State.setST_tickNo (s : State) (val : Byte) : (s.setST val).tickNo = s.tickNo := rfl

/-! ### setFB -/

@[simp] theorem State.setFB_v (s : State) (fb : FrameBuffer) : (s.setFB fb).v = s.v := rfl
@[simp] theorem State.setFB_i (s : State) (fb : FrameBuffer) : (s.setFB fb).i = s.i := rfl
@[simp] theorem State.setFB_pc (s : State) (fb : FrameBuffer) : (s.setFB fb).pc = s.pc := rfl
@[simp] theorem State.setFB_mem (s : State) (fb : FrameBuffer) : (s.setFB fb).mem = s.mem := rfl
@[simp] theorem State.setFB_fb (s : State) (fb : FrameBuffer) : (s.setFB fb).fb = fb := rfl
@[simp] theorem State.setFB_stack (s : State) (fb : FrameBuffer) : (s.setFB fb).stack = s.stack := rfl
@[simp] theorem State.setFB_sp (s : State) (fb : FrameBuffer) : (s.setFB fb).sp = s.sp := rfl
@[simp] theorem State.setFB_dt (s : State) (fb : FrameBuffer) : (s.setFB fb).dt = s.dt := rfl
@[simp] theorem State.setFB_st (s : State) (fb : FrameBuffer) : (s.setFB fb).st = s.st := rfl
@[simp] theorem State.setFB_key (s : State) (fb : FrameBuffer) : (s.setFB fb).key = s.key := rfl
@[simp] theorem State.setFB_tone (s : State) (fb : FrameBuffer) : (s.setFB fb).tone = s.tone := rfl
@[simp] theorem State.setFB_report (s : State) (fb : FrameBuffer) : (s.setFB fb).report = s.report := rfl
@[simp] theorem State.setFB_rndIn (s : State) (fb : FrameBuffer) : (s.setFB fb).rndIn = s.rndIn := rfl
@[simp] theorem State.setFB_phase (s : State) (fb : FrameBuffer) : (s.setFB fb).phase = s.phase := rfl
@[simp] theorem State.setFB_frameNo (s : State) (fb : FrameBuffer) : (s.setFB fb).frameNo = s.frameNo := rfl
@[simp] theorem State.setFB_tickNo (s : State) (fb : FrameBuffer) : (s.setFB fb).tickNo = s.tickNo := rfl

/-! ### writeByte -/

@[simp] theorem State.writeByte_v (s : State) (addr : Nat) (val : Byte) : (s.writeByte addr val).v = s.v := rfl
@[simp] theorem State.writeByte_i (s : State) (addr : Nat) (val : Byte) : (s.writeByte addr val).i = s.i := rfl
@[simp] theorem State.writeByte_pc (s : State) (addr : Nat) (val : Byte) : (s.writeByte addr val).pc = s.pc := rfl
@[simp] theorem State.writeByte_mem (s : State) (addr : Nat) (val : Byte) : (s.writeByte addr val).mem = s.mem.write (maskAddr addr) val := rfl
@[simp] theorem State.writeByte_fb (s : State) (addr : Nat) (val : Byte) : (s.writeByte addr val).fb = s.fb := rfl
@[simp] theorem State.writeByte_stack (s : State) (addr : Nat) (val : Byte) : (s.writeByte addr val).stack = s.stack := rfl
@[simp] theorem State.writeByte_sp (s : State) (addr : Nat) (val : Byte) : (s.writeByte addr val).sp = s.sp := rfl
@[simp] theorem State.writeByte_dt (s : State) (addr : Nat) (val : Byte) : (s.writeByte addr val).dt = s.dt := rfl
@[simp] theorem State.writeByte_st (s : State) (addr : Nat) (val : Byte) : (s.writeByte addr val).st = s.st := rfl
@[simp] theorem State.writeByte_key (s : State) (addr : Nat) (val : Byte) : (s.writeByte addr val).key = s.key := rfl
@[simp] theorem State.writeByte_tone (s : State) (addr : Nat) (val : Byte) : (s.writeByte addr val).tone = s.tone := rfl
@[simp] theorem State.writeByte_report (s : State) (addr : Nat) (val : Byte) : (s.writeByte addr val).report = s.report := rfl
@[simp] theorem State.writeByte_rndIn (s : State) (addr : Nat) (val : Byte) : (s.writeByte addr val).rndIn = s.rndIn := rfl
@[simp] theorem State.writeByte_phase (s : State) (addr : Nat) (val : Byte) : (s.writeByte addr val).phase = s.phase := rfl
@[simp] theorem State.writeByte_frameNo (s : State) (addr : Nat) (val : Byte) : (s.writeByte addr val).frameNo = s.frameNo := rfl
@[simp] theorem State.writeByte_tickNo (s : State) (addr : Nat) (val : Byte) : (s.writeByte addr val).tickNo = s.tickNo := rfl

/-! ### popState -/

@[simp] theorem State.popState_v (s : State) : (s.popState).v = s.v := rfl
@[simp] theorem State.popState_i (s : State) : (s.popState).i = s.i := rfl
@[simp] theorem State.popState_pc (s : State) : (s.popState).pc = s.pc := rfl
@[simp] theorem State.popState_mem (s : State) : (s.popState).mem = s.mem := rfl
@[simp] theorem State.popState_fb (s : State) : (s.popState).fb = s.fb := rfl
@[simp] theorem State.popState_stack (s : State) : (s.popState).stack = s.stack := rfl
@[simp] theorem State.popState_dt (s : State) : (s.popState).dt = s.dt := rfl
@[simp] theorem State.popState_st (s : State) : (s.popState).st = s.st := rfl
@[simp] theorem State.popState_key (s : State) : (s.popState).key = s.key := rfl
@[simp] theorem State.popState_tone (s : State) : (s.popState).tone = s.tone := rfl
@[simp] theorem State.popState_report (s : State) : (s.popState).report = s.report := rfl
@[simp] theorem State.popState_rndIn (s : State) : (s.popState).rndIn = s.rndIn := rfl
@[simp] theorem State.popState_phase (s : State) : (s.popState).phase = s.phase := rfl
@[simp] theorem State.popState_frameNo (s : State) : (s.popState).frameNo = s.frameNo := rfl
@[simp] theorem State.popState_tickNo (s : State) : (s.popState).tickNo = s.tickNo := rfl

/-! ### frameStart -/

@[simp] theorem State.frameStart_v (s : State) (keys : BitVec 16) : (s.frameStart keys).v = s.v := rfl
@[simp] theorem State.frameStart_i (s : State) (keys : BitVec 16) : (s.frameStart keys).i = s.i := rfl
@[simp] theorem State.frameStart_pc (s : State) (keys : BitVec 16) : (s.frameStart keys).pc = s.pc := rfl
@[simp] theorem State.frameStart_mem (s : State) (keys : BitVec 16) : (s.frameStart keys).mem = s.mem := rfl
@[simp] theorem State.frameStart_fb (s : State) (keys : BitVec 16) : (s.frameStart keys).fb = s.fb := rfl
@[simp] theorem State.frameStart_stack (s : State) (keys : BitVec 16) : (s.frameStart keys).stack = s.stack := rfl
@[simp] theorem State.frameStart_sp (s : State) (keys : BitVec 16) : (s.frameStart keys).sp = s.sp := rfl
@[simp] theorem State.frameStart_dt (s : State) (keys : BitVec 16) : (s.frameStart keys).dt = s.dt := rfl
@[simp] theorem State.frameStart_st (s : State) (keys : BitVec 16) : (s.frameStart keys).st = s.st := rfl
@[simp] theorem State.frameStart_key (s : State) (keys : BitVec 16) : (s.frameStart keys).key = keys := rfl
@[simp] theorem State.frameStart_tone (s : State) (keys : BitVec 16) : (s.frameStart keys).tone = s.tone := rfl
@[simp] theorem State.frameStart_report (s : State) (keys : BitVec 16) : (s.frameStart keys).report = s.report := rfl
@[simp] theorem State.frameStart_rndIn (s : State) (keys : BitVec 16) : (s.frameStart keys).rndIn = s.rndIn := rfl
@[simp] theorem State.frameStart_phase (s : State) (keys : BitVec 16) : (s.frameStart keys).phase = s.phase := rfl
@[simp] theorem State.frameStart_frameNo (s : State) (keys : BitVec 16) : (s.frameStart keys).frameNo = s.frameNo := rfl
@[simp] theorem State.frameStart_tickNo (s : State) (keys : BitVec 16) : (s.frameStart keys).tickNo = s.tickNo := rfl

/-! ### frameEnd -/

@[simp] theorem State.frameEnd_v (s : State) : (s.frameEnd).v = s.v := rfl
@[simp] theorem State.frameEnd_i (s : State) : (s.frameEnd).i = s.i := rfl
@[simp] theorem State.frameEnd_pc (s : State) : (s.frameEnd).pc = s.pc := rfl
@[simp] theorem State.frameEnd_mem (s : State) : (s.frameEnd).mem = s.mem := rfl
@[simp] theorem State.frameEnd_fb (s : State) : (s.frameEnd).fb = s.fb := rfl
@[simp] theorem State.frameEnd_stack (s : State) : (s.frameEnd).stack = s.stack := rfl
@[simp] theorem State.frameEnd_sp (s : State) : (s.frameEnd).sp = s.sp := rfl
@[simp] theorem State.frameEnd_dt (s : State) : (s.frameEnd).dt = countdown s.dt := rfl
@[simp] theorem State.frameEnd_st (s : State) : (s.frameEnd).st = countdown s.st := rfl
@[simp] theorem State.frameEnd_key (s : State) : (s.frameEnd).key = s.key := rfl
@[simp] theorem State.frameEnd_tone (s : State) : (s.frameEnd).tone = (s.st != 0) := rfl
@[simp] theorem State.frameEnd_report (s : State) : (s.frameEnd).report = s.report := rfl
@[simp] theorem State.frameEnd_rndIn (s : State) : (s.frameEnd).rndIn = s.rndIn := rfl
@[simp] theorem State.frameEnd_phase (s : State) : (s.frameEnd).phase = s.phase := rfl
@[simp] theorem State.frameEnd_frameNo (s : State) : (s.frameEnd).frameNo = s.frameNo := rfl
@[simp] theorem State.frameEnd_tickNo (s : State) : (s.frameEnd).tickNo = s.tickNo := rfl

/-! ### postFetch -/

@[simp] theorem State.postFetch_v (s : State) (r : Draw) : (s.postFetch r).v = s.v := rfl
@[simp] theorem State.postFetch_i (s : State) (r : Draw) : (s.postFetch r).i = s.i := rfl
@[simp] theorem State.postFetch_pc (s : State) (r : Draw) : (s.postFetch r).pc = s.pc + 2 := rfl
@[simp] theorem State.postFetch_mem (s : State) (r : Draw) : (s.postFetch r).mem = s.mem := rfl
@[simp] theorem State.postFetch_fb (s : State) (r : Draw) : (s.postFetch r).fb = s.fb := rfl
@[simp] theorem State.postFetch_stack (s : State) (r : Draw) : (s.postFetch r).stack = s.stack := rfl
@[simp] theorem State.postFetch_sp (s : State) (r : Draw) : (s.postFetch r).sp = s.sp := rfl
@[simp] theorem State.postFetch_dt (s : State) (r : Draw) : (s.postFetch r).dt = s.dt := rfl
@[simp] theorem State.postFetch_st (s : State) (r : Draw) : (s.postFetch r).st = s.st := rfl
@[simp] theorem State.postFetch_key (s : State) (r : Draw) : (s.postFetch r).key = s.key := rfl
@[simp] theorem State.postFetch_tone (s : State) (r : Draw) : (s.postFetch r).tone = s.tone := rfl
@[simp] theorem State.postFetch_report (s : State) (r : Draw) : (s.postFetch r).report = none := rfl
@[simp] theorem State.postFetch_rndIn (s : State) (r : Draw) : (s.postFetch r).rndIn = r := rfl
@[simp] theorem State.postFetch_phase (s : State) (r : Draw) : (s.postFetch r).phase = s.phase := rfl
@[simp] theorem State.postFetch_frameNo (s : State) (r : Draw) : (s.postFetch r).frameNo = s.frameNo := rfl
@[simp] theorem State.postFetch_tickNo (s : State) (r : Draw) : (s.postFetch r).tickNo = s.tickNo := rfl

/-! ### reportBadOpcode -/

@[simp] theorem State.reportBadOpcode_v (s : State) (op addr : Word) : (s.reportBadOpcode op addr).v = s.v := rfl
@[simp] theorem State.reportBadOpcode_i (s : State) (op addr : Word) : (s.reportBadOpcode op addr).i = s.i := rfl
@[simp] theorem State.reportBadOpcode_pc (s : State) (op addr : Word) : (s.reportBadOpcode op addr).pc = s.pc := rfl
@[simp] theorem State.reportBadOpcode_mem (s : State) (op addr : Word) : (s.reportBadOpcode op addr).mem = s.mem := rfl
@[simp] theorem State.reportBadOpcode_fb (s : State) (op addr : Word) : (s.reportBadOpcode op addr).fb = s.fb := rfl
@[simp] theorem State.reportBadOpcode_stack (s : State) (op addr : Word) : (s.reportBadOpcode op addr).stack = s.stack := rfl
@[simp] theorem State.reportBadOpcode_sp (s : State) (op addr : Word) : (s.reportBadOpcode op addr).sp = s.sp := rfl
@[simp] theorem State.reportBadOpcode_dt (s : State) (op addr : Word) : (s.reportBadOpcode op addr).dt = s.dt := rfl
@[simp] theorem State.reportBadOpcode_st (s : State) (op addr : Word) : (s.reportBadOpcode op addr).st = s.st := rfl
@[simp] theorem State.reportBadOpcode_key (s : State) (op addr : Word) : (s.reportBadOpcode op addr).key = s.key := rfl
@[simp] theorem State.reportBadOpcode_tone (s : State) (op addr : Word) : (s.reportBadOpcode op addr).tone = s.tone := rfl
@[simp] theorem State.reportBadOpcode_report (s : State) (op addr : Word) : (s.reportBadOpcode op addr).report = some ⟨op, addr⟩ := rfl
@[simp] theorem State.reportBadOpcode_rndIn (s : State) (op addr : Word) : (s.reportBadOpcode op addr).rndIn = s.rndIn := rfl
@[simp] theorem State.reportBadOpcode_phase (s : State) (op addr : Word) : (s.reportBadOpcode op addr).phase = s.phase := rfl
@[simp] theorem State.reportBadOpcode_frameNo (s : State) (op addr : Word) : (s.reportBadOpcode op addr).frameNo = s.frameNo := rfl
@[simp] theorem State.reportBadOpcode_tickNo (s : State) (op addr : Word) : (s.reportBadOpcode op addr).tickNo = s.tickNo := rfl

@[simp] theorem State.popState_sp (s : State) : s.popState.sp.val = s.sp.val - 1 := rfl

/-! ### skipIf -/

@[simp] theorem State.skipIf_v (s : State) (c : Bool) : (s.skipIf c).v = s.v := rfl
@[simp] theorem State.skipIf_i (s : State) (c : Bool) : (s.skipIf c).i = s.i := rfl
@[simp] theorem State.skipIf_pc (s : State) (c : Bool) : (s.skipIf c).pc = (if c then s.pc + 2 else s.pc) := rfl
@[simp] theorem State.skipIf_mem (s : State) (c : Bool) : (s.skipIf c).mem = s.mem := rfl
@[simp] theorem State.skipIf_fb (s : State) (c : Bool) : (s.skipIf c).fb = s.fb := rfl
@[simp] theorem State.skipIf_stack (s : State) (c : Bool) : (s.skipIf c).stack = s.stack := rfl
@[simp] theorem State.skipIf_sp (s : State) (c : Bool) : (s.skipIf c).sp = s.sp := rfl
@[simp] theorem State.skipIf_dt (s : State) (c : Bool) : (s.skipIf c).dt = s.dt := rfl
@[simp] theorem State.skipIf_st (s : State) (c : Bool) : (s.skipIf c).st = s.st := rfl
@[simp] theorem State.skipIf_key (s : State) (c : Bool) : (s.skipIf c).key = s.key := rfl
@[simp] theorem State.skipIf_tone (s : State) (c : Bool) : (s.skipIf c).tone = s.tone := rfl
@[simp] theorem State.skipIf_report (s : State) (c : Bool) : (s.skipIf c).report = s.report := rfl
@[simp] theorem State.skipIf_rndIn (s : State) (c : Bool) : (s.skipIf c).rndIn = s.rndIn := rfl
@[simp] theorem State.skipIf_phase (s : State) (c : Bool) : (s.skipIf c).phase = s.phase := rfl
@[simp] theorem State.skipIf_frameNo (s : State) (c : Bool) : (s.skipIf c).frameNo = s.frameNo := rfl
@[simp] theorem State.skipIf_tickNo (s : State) (c : Bool) : (s.skipIf c).tickNo = s.tickNo := rfl

/-! ### setVs -/

@[simp] theorem State.setVs_v (s : State) (n : Nat) (f : Nat → Byte) : (s.setVs n f).v = writeRegs n f s.v := rfl
@[simp] theorem State.setVs_i (s : State) (n : Nat) (f : Nat → Byte) : (s.setVs n f).i = s.i := rfl
@[simp] theorem State.setVs_pc (s : State) (n : Nat) (f : Nat → Byte) : (s.setVs n f).pc = s.pc := rfl
@[simp] theorem State.setVs_mem (s : State) (n : Nat) (f : Nat → Byte) : (s.setVs n f).mem = s.mem := rfl
@[simp] theorem State.setVs_fb (s : State) (n : Nat) (f : Nat → Byte) : (s.setVs n f).fb = s.fb := rfl
@[simp] theorem State.setVs_stack (s : State) (n : Nat) (f : Nat → Byte) : (s.setVs n f).stack = s.stack := rfl
@[simp] theorem State.setVs_sp (s : State) (n : Nat) (f : Nat → Byte) : (s.setVs n f).sp = s.sp := rfl
@[simp] theorem State.setVs_dt (s : State) (n : Nat) (f : Nat → Byte) : (s.setVs n f).dt = s.dt := rfl
@[simp] theorem State.setVs_st (s : State) (n : Nat) (f : Nat → Byte) : (s.setVs n f).st = s.st := rfl
@[simp] theorem State.setVs_key (s : State) (n : Nat) (f : Nat → Byte) : (s.setVs n f).key = s.key := rfl
@[simp] theorem State.setVs_tone (s : State) (n : Nat) (f : Nat → Byte) : (s.setVs n f).tone = s.tone := rfl
@[simp] theorem State.setVs_report (s : State) (n : Nat) (f : Nat → Byte) : (s.setVs n f).report = s.report := rfl
@[simp] theorem State.setVs_rndIn (s : State) (n : Nat) (f : Nat → Byte) : (s.setVs n f).rndIn = s.rndIn := rfl
@[simp] theorem State.setVs_phase (s : State) (n : Nat) (f : Nat → Byte) : (s.setVs n f).phase = s.phase := rfl
@[simp] theorem State.setVs_frameNo (s : State) (n : Nat) (f : Nat → Byte) : (s.setVs n f).frameNo = s.frameNo := rfl
@[simp] theorem State.setVs_tickNo (s : State) (n : Nat) (f : Nat → Byte) : (s.setVs n f).tickNo = s.tickNo := rfl

/-! ### writeBytes -/

@[simp] theorem State.writeBytes_v (s : State) (addr n : Nat) (f : Nat → Byte) : (s.writeBytes addr n f).v = s.v := rfl
@[simp] theorem State.writeBytes_i (s : State) (addr n : Nat) (f : Nat → Byte) : (s.writeBytes addr n f).i = s.i := rfl
@[simp] theorem State.writeBytes_pc (s : State) (addr n : Nat) (f : Nat → Byte) : (s.writeBytes addr n f).pc = s.pc := rfl
@[simp] theorem State.writeBytes_mem (s : State) (addr n : Nat) (f : Nat → Byte) : (s.writeBytes addr n f).mem = s.mem.writeBlock addr n f := rfl
@[simp] theorem State.writeBytes_fb (s : State) (addr n : Nat) (f : Nat → Byte) : (s.writeBytes addr n f).fb = s.fb := rfl
@[simp] theorem State.writeBytes_stack (s : State) (addr n : Nat) (f : Nat → Byte) : (s.writeBytes addr n f).stack = s.stack := rfl
@[simp] theorem State.writeBytes_sp (s : State) (addr n : Nat) (f : Nat → Byte) : (s.writeBytes addr n f).sp = s.sp := rfl
@[simp] theorem State.writeBytes_dt (s : State) (addr n : Nat) (f : Nat → Byte) : (s.writeBytes addr n f).dt = s.dt := rfl
@[simp] theorem State.writeBytes_st (s : State) (addr n : Nat) (f : Nat → Byte) : (s.writeBytes addr n f).st = s.st := rfl
@[simp] theorem State.writeBytes_key (s : State) (addr n : Nat) (f : Nat → Byte) : (s.writeBytes addr n f).key = s.key := rfl
@[simp] theorem State.writeBytes_tone (s : State) (addr n : Nat) (f : Nat → Byte) : (s.writeBytes addr n f).tone = s.tone := rfl
@[simp] theorem State.writeBytes_report (s : State) (addr n : Nat) (f : Nat → Byte) : (s.writeBytes addr n f).report = s.report := rfl
@[simp] theorem State.writeBytes_rndIn (s : State) (addr n : Nat) (f : Nat → Byte) : (s.writeBytes addr n f).rndIn = s.rndIn := rfl
@[simp] theorem State.writeBytes_phase (s : State) (addr n : Nat) (f : Nat → Byte) : (s.writeBytes addr n f).phase = s.phase := rfl
@[simp] theorem State.writeBytes_frameNo (s : State) (addr n : Nat) (f : Nat → Byte) : (s.writeBytes addr n f).frameNo = s.frameNo := rfl
@[simp] theorem State.writeBytes_tickNo (s : State) (addr n : Nat) (f : Nat → Byte) : (s.writeBytes addr n f).tickNo = s.tickNo := rfl

/-! ### push -/

@[simp] theorem State.push_v (s : State) (w : Word) : (s.push w).v = s.v := rfl
@[simp] theorem State.push_i (s : State) (w : Word) : (s.push w).i = s.i := rfl
@[simp] theorem State.push_pc (s : State) (w : Word) : (s.push w).pc = s.pc := rfl
@[simp] theorem State.push_mem (s : State) (w : Word) : (s.push w).mem = s.mem := rfl
@[simp] theorem State.push_fb (s : State) (w : Word) : (s.push w).fb = s.fb := rfl
@[simp] theorem State.push_stack (s : State) (w : Word) : (s.push w).stack = s.pushCells w := rfl
@[simp] theorem State.push_sp (s : State) (w : Word) : (s.push w).sp = s.pushDepth := rfl
@[simp] theorem State.push_dt (s : State) (w : Word) : (s.push w).dt = s.dt := rfl
@[simp] theorem State.push_st (s : State) (w : Word) : (s.push w).st = s.st := rfl
@[simp] theorem State.push_key (s : State) (w : Word) : (s.push w).key = s.key := rfl
@[simp] theorem State.push_tone (s : State) (w : Word) : (s.push w).tone = s.tone := rfl
@[simp] theorem State.push_report (s : State) (w : Word) : (s.push w).report = s.report := rfl
@[simp] theorem State.push_rndIn (s : State) (w : Word) : (s.push w).rndIn = s.rndIn := rfl
@[simp] theorem State.push_phase (s : State) (w : Word) : (s.push w).phase = s.phase := rfl
@[simp] theorem State.push_frameNo (s : State) (w : Word) : (s.push w).frameNo = s.frameNo := rfl
@[simp] theorem State.push_tickNo (s : State) (w : Word) : (s.push w).tickNo = s.tickNo := rfl

/-! ### setFlag -/

@[simp] theorem State.setFlag_v (s : State) (f : Bool) : (s.setFlag f).v = s.v.set vf.toNat (flagByte f) vf.isLt := rfl
@[simp] theorem State.setFlag_i (s : State) (f : Bool) : (s.setFlag f).i = s.i := rfl
@[simp] theorem State.setFlag_pc (s : State) (f : Bool) : (s.setFlag f).pc = s.pc := rfl
@[simp] theorem State.setFlag_mem (s : State) (f : Bool) : (s.setFlag f).mem = s.mem := rfl
@[simp] theorem State.setFlag_fb (s : State) (f : Bool) : (s.setFlag f).fb = s.fb := rfl
@[simp] theorem State.setFlag_stack (s : State) (f : Bool) : (s.setFlag f).stack = s.stack := rfl
@[simp] theorem State.setFlag_sp (s : State) (f : Bool) : (s.setFlag f).sp = s.sp := rfl
@[simp] theorem State.setFlag_dt (s : State) (f : Bool) : (s.setFlag f).dt = s.dt := rfl
@[simp] theorem State.setFlag_st (s : State) (f : Bool) : (s.setFlag f).st = s.st := rfl
@[simp] theorem State.setFlag_key (s : State) (f : Bool) : (s.setFlag f).key = s.key := rfl
@[simp] theorem State.setFlag_tone (s : State) (f : Bool) : (s.setFlag f).tone = s.tone := rfl
@[simp] theorem State.setFlag_report (s : State) (f : Bool) : (s.setFlag f).report = s.report := rfl
@[simp] theorem State.setFlag_rndIn (s : State) (f : Bool) : (s.setFlag f).rndIn = s.rndIn := rfl
@[simp] theorem State.setFlag_phase (s : State) (f : Bool) : (s.setFlag f).phase = s.phase := rfl
@[simp] theorem State.setFlag_frameNo (s : State) (f : Bool) : (s.setFlag f).frameNo = s.frameNo := rfl
@[simp] theorem State.setFlag_tickNo (s : State) (f : Bool) : (s.setFlag f).tickNo = s.tickNo := rfl

/-! ### setResultFlag -/

@[simp] theorem State.setResultFlag_i (s : State) (x : Reg) (val : Byte) (f : Bool) : (s.setResultFlag x val f).i = s.i := rfl
@[simp] theorem State.setResultFlag_pc (s : State) (x : Reg) (val : Byte) (f : Bool) : (s.setResultFlag x val f).pc = s.pc := rfl
@[simp] theorem State.setResultFlag_mem (s : State) (x : Reg) (val : Byte) (f : Bool) : (s.setResultFlag x val f).mem = s.mem := rfl
@[simp] theorem State.setResultFlag_fb (s : State) (x : Reg) (val : Byte) (f : Bool) : (s.setResultFlag x val f).fb = s.fb := rfl
@[simp] theorem State.setResultFlag_stack (s : State) (x : Reg) (val : Byte) (f : Bool) : (s.setResultFlag x val f).stack = s.stack := rfl
@[simp] theorem State.setResultFlag_sp (s : State) (x : Reg) (val : Byte) (f : Bool) : (s.setResultFlag x val f).sp = s.sp := rfl
@[simp] theorem State.setResultFlag_dt (s : State) (x : Reg) (val : Byte) (f : Bool) : (s.setResultFlag x val f).dt = s.dt := rfl
@[simp] theorem State.setResultFlag_st (s : State) (x : Reg) (val : Byte) (f : Bool) : (s.setResultFlag x val f).st = s.st := rfl
@[simp] theorem State.setResultFlag_key (s : State) (x : Reg) (val : Byte) (f : Bool) : (s.setResultFlag x val f).key = s.key := rfl
@[simp] theorem State.setResultFlag_tone (s : State) (x : Reg) (val : Byte) (f : Bool) : (s.setResultFlag x val f).tone = s.tone := rfl
@[simp] theorem State.setResultFlag_report (s : State) (x : Reg) (val : Byte) (f : Bool) : (s.setResultFlag x val f).report = s.report := rfl
@[simp] theorem State.setResultFlag_rndIn (s : State) (x : Reg) (val : Byte) (f : Bool) : (s.setResultFlag x val f).rndIn = s.rndIn := rfl
@[simp] theorem State.setResultFlag_phase (s : State) (x : Reg) (val : Byte) (f : Bool) : (s.setResultFlag x val f).phase = s.phase := rfl
@[simp] theorem State.setResultFlag_frameNo (s : State) (x : Reg) (val : Byte) (f : Bool) : (s.setResultFlag x val f).frameNo = s.frameNo := rfl
@[simp] theorem State.setResultFlag_tickNo (s : State) (x : Reg) (val : Byte) (f : Bool) : (s.setResultFlag x val f).tickNo = s.tickNo := rfl

end Sys2Proof.Machine
end

