-- ==== Sys2Proof/Laws/Registers.lean ====
section
/-! SUPPORT. General registers, flags, skips and the call stack: one lemma per operation that says what it does. -/

namespace Sys2Proof.Machine

/-- `V[y]` after `V[x] <- val`. -/
theorem State.getV_setV (s : State) (x y : Reg) (val : Byte) :
    (s.setV x val).getV y = if y = x then val else s.getV y := by
  unfold State.getV State.setV
  by_cases h : y = x
  · subst h; simp
  · have hn : x.toNat ≠ y.toNat := fun e => h (BitVec.eq_of_toNat_eq e.symm)
    simp [Vector.getElem_set_ne, hn, h]

@[simp] theorem State.getV_setV_same (s : State) (x : Reg) (val : Byte) : (s.setV x val).getV x = val := by
  rw [State.getV_setV, if_pos rfl]

@[simp] theorem State.getV_setV_ne (s : State) {x y : Reg} (h : y ≠ x) (val : Byte) :
    (s.setV x val).getV y = s.getV y := by
  rw [State.getV_setV, if_neg h]

@[simp] theorem State.getV_setI (s : State) (w : Word) (x : Reg) : (s.setI w).getV x = s.getV x := rfl
@[simp] theorem State.getV_setPC (s : State) (w : Word) (x : Reg) : (s.setPC w).getV x = s.getV x := rfl
@[simp] theorem State.getV_setFB (s : State) (fb : FrameBuffer) (x : Reg) : (s.setFB fb).getV x = s.getV x := rfl

/-- The result first, the flag last (41_alu.md R120): what every register holds afterwards. -/
theorem State.getV_setResultFlag (s : State) (x y : Reg) (val : Byte) (f : Bool) :
    (s.setResultFlag x val f).getV y = if y = vf then flagByte f else if y = x then val else s.getV y := by
  rw [State.setResultFlag, State.setFlag, State.getV_setV, State.getV_setV]

/-! ### A block of registers -/

theorem State.setVs_succ (s : State) (n : Nat) (f : Nat → Byte) :
    s.setVs (n + 1) f = (s.setVs n f).setV (BitVec.ofNat 4 n) (f n) := by
  simp [State.setVs, State.setV, writeRegs, List.range_succ]

/-- Registers below `n` hold their byte, the others are unchanged. -/
theorem State.getV_setVs (s : State) {n : Nat} (hn : n ≤ 16) (f : Nat → Byte) (y : Reg) :
    (s.setVs n f).getV y = if y.toNat < n then f y.toNat else s.getV y := by
  induction n with
  | zero => rfl
  | succ n ih =>
    rw [State.setVs_succ, State.getV_setV, ih (by omega)]
    have hofNat : (BitVec.ofNat 4 n).toNat = n := by simp [BitVec.toNat_ofNat]; omega
    by_cases hy : y = BitVec.ofNat 4 n
    · rw [if_pos hy, if_pos (by rw [hy, hofNat]; omega), hy, hofNat]
    · have : y.toNat ≠ n := fun e => hy (BitVec.eq_of_toNat_eq (by rw [e, hofNat]))
      rw [if_neg hy]
      by_cases hlt : y.toNat < n
      · rw [if_pos hlt, if_pos (by omega)]
      · rw [if_neg hlt, if_neg (by omega)]

/-! ### The call stack -/

/-- A push onto a stack that is not full: the cell SP indexed, SP one higher (10_state.md R35). -/
theorem State.push_of_lt {s : State} (h : s.sp.val < 16) (w : Word) :
    s.push w = { s with stack := s.stack.set s.sp.val w h, sp := ⟨s.sp.val + 1, Nat.succ_lt_succ h⟩ } := by
  simp only [State.push, State.pushCells, State.pushDepth, dif_pos h]

/-- A push onto a full stack is dropped. -/
theorem State.push_of_full {s : State} (h : s.sp.val = 16) (w : Word) : s.push w = s := by
  have hn : ¬ s.sp.val < 16 := by omega
  simp only [State.push, State.pushCells, State.pushDepth, dif_neg hn]

/-- What a pop returns when SP is k + 1: the top entry, STACK[k] (R36). -/
theorem State.popValue_succ {s : State} {k : Nat} (hk : k < 16) (h : s.sp.val = k + 1) : s.popValue = s.stack[k] := by
  unfold State.popValue
  rw [if_neg (by omega)]
  congr 1
  omega

/-- What a pop returns on an empty stack (R36). -/
theorem State.popValue_empty {s : State} (h : s.sp.val = 0) : s.popValue = 0 := by
  rw [State.popValue, if_pos h]

end Sys2Proof.Machine
end

