-- ==== Sys2Proof/Laws/Draw.lean ====
section
/-! SUPPORT. The sprite loop of DRW, cell by cell: which cells it inverts and when it reports a collision
(43_display.md R146 to R148). -/

namespace Sys2Proof.Machine

theorem FrameBuffer.cell_toggle (fb : FrameBuffer) {px py : Nat} (hx : px ≤ 63) (hy : py ≤ 31) (qx qy : Nat) :
    FrameBuffer.cell (FrameBuffer.toggle fb px py) qx qy = (FrameBuffer.cell fb qx qy ^^ decide (qx = px ∧ qy = py)) := by
  unfold FrameBuffer.cell FrameBuffer.toggle
  have hpy : py < 32 := by omega
  simp only [hpy, dite_true]
  by_cases hq : qy < 32
  · simp only [hq, dite_true]
    by_cases he : qy = py
    · subst he
      simp [BitVec.getLsbD_twoPow]
      have : px < 64 := by omega
      simp [this, eq_comm]
    · rw [Vector.getElem_set_ne _ _ (fun e => he e.symm)]
      simp [he]
  · have : qy ≠ py := by omega
    simp [hq, this]

/-- One row's loop over its first `k` columns. -/
def drawCols (b : Byte) (x0 py k : Nat) (c : Canvas) : Canvas :=
  (List.range k).foldl (fun c k => if b.getLsbD (7 - k) then drawPixel (x0 + k) py c else c) c

theorem drawCols_succ (b : Byte) (x0 py k : Nat) (c : Canvas) : drawCols b x0 py (k + 1) c =
    if b.getLsbD (7 - k) then drawPixel (x0 + k) py (drawCols b x0 py k c) else drawCols b x0 py k c := by
  simp [drawCols, List.range_succ]

theorem drawRow_eq (b : Byte) (x0 py : Nat) (c : Canvas) : drawRow b x0 py c = drawCols b x0 py 8 c := rfl

/-- One row's set bit at column px. -/
def rowBit (b : Byte) (x0 k px : Nat) : Bool := decide (x0 ≤ px ∧ px < x0 + k) && b.getLsbD (7 - (px - x0))

theorem drawCols_cell (b : Byte) (x0 py k : Nat) (hk : k ≤ 8) (c : Canvas) (qx qy : Nat) (hx : qx ≤ 63) (hy : qy ≤ 31) :
    FrameBuffer.cell (drawCols b x0 py k c).fb qx qy =
      (FrameBuffer.cell c.fb qx qy ^^ (decide (qy = py) && rowBit b x0 k qx)) := by
  induction k with
  | zero => simp [drawCols, rowBit, show ∀ q, ¬ (x0 ≤ q ∧ q < x0) by omega]
  | succ k ih =>
    rw [drawCols_succ]
    have key : rowBit b x0 (k + 1) qx = (rowBit b x0 k qx || (decide (qx = x0 + k) && b.getLsbD (7 - k))) := by
      unfold rowBit
      by_cases h : qx = x0 + k
      · subst h; simp
      · have : (x0 ≤ qx ∧ qx < x0 + (k + 1)) ↔ (x0 ≤ qx ∧ qx < x0 + k) := by omega
        simp [h, this]
    have excl : (rowBit b x0 k qx && decide (qx = x0 + k)) = false := by
      unfold rowBit
      by_cases h : qx = x0 + k
      · subst h; simp
      · simp [h]
    by_cases hb : b.getLsbD (7 - k) = true
    · rw [if_pos hb]
      unfold drawPixel
      split
      · next hin =>
        rw [FrameBuffer.cell_toggle _ hin.1 hin.2, ih (by omega), key, hb]
        revert excl
        cases rowBit b x0 k qx <;> by_cases h1 : qx = x0 + k <;> by_cases h2 : qy = py <;> simp [h1, h2]
      · next hin =>
        rw [ih (by omega), key, hb]
        have : ¬ (qx = x0 + k ∧ qy = py) := by rintro ⟨rfl, rfl⟩; exact hin ⟨hx, hy⟩
        by_cases h1 : qx = x0 + k
        · have h2 : qy ≠ py := fun h => this ⟨h1, h⟩
          simp [h2]
        · simp [h1]
    · rw [if_neg hb, ih (by omega), key]
      simp [hb]

theorem drawCols_hit (b : Byte) (x0 py k : Nat) (hk : k ≤ 8) (c : Canvas) :
    (drawCols b x0 py k c).hit = true ↔
      (c.hit = true ∨ ∃ px, px ≤ 63 ∧ py ≤ 31 ∧ rowBit b x0 k px = true ∧ FrameBuffer.cell c.fb px py = true) := by
  induction k with
  | zero => simp [drawCols, rowBit, show ∀ q, ¬ (x0 ≤ q ∧ q < x0) by omega]
  | succ k ih =>
    rw [drawCols_succ]
    have mono : ∀ px, rowBit b x0 (k + 1) px = true ↔ (rowBit b x0 k px = true ∨ (px = x0 + k ∧ b.getLsbD (7 - k) = true)) := by
      intro px
      unfold rowBit
      by_cases h : px = x0 + k
      · subst h; simp
      · have : (x0 ≤ px ∧ px < x0 + (k + 1)) ↔ (x0 ≤ px ∧ px < x0 + k) := by omega
        simp [h, this]
    have split_ex : (∃ px, px ≤ 63 ∧ py ≤ 31 ∧ rowBit b x0 (k + 1) px = true ∧ FrameBuffer.cell c.fb px py = true) ↔
        ((∃ px, px ≤ 63 ∧ py ≤ 31 ∧ rowBit b x0 k px = true ∧ FrameBuffer.cell c.fb px py = true) ∨
          (x0 + k ≤ 63 ∧ py ≤ 31 ∧ b.getLsbD (7 - k) = true ∧ FrameBuffer.cell c.fb (x0 + k) py = true)) := by
      constructor
      · rintro ⟨px, h1, h2, h3, h4⟩
        rcases (mono px).1 h3 with h | ⟨rfl, h⟩
        · exact .inl ⟨px, h1, h2, h, h4⟩
        · exact .inr ⟨h1, h2, h, h4⟩
      · rintro (⟨px, h1, h2, h3, h4⟩ | ⟨h1, h2, h3, h4⟩)
        · exact ⟨px, h1, h2, (mono px).2 (.inl h3), h4⟩
        · exact ⟨x0 + k, h1, h2, (mono _).2 (.inr ⟨rfl, h3⟩), h4⟩
    rw [split_ex]
    by_cases hb : b.getLsbD (7 - k) = true
    · rw [if_pos hb]
      unfold drawPixel
      split
      · next hin =>
        have hcell := drawCols_cell b x0 py k (by omega) c (x0 + k) py hin.1 hin.2
        have hno : rowBit b x0 k (x0 + k) = false := by simp [rowBit]
        simp only [hno, Bool.and_false, Bool.xor_false] at hcell
        simp only [Bool.or_eq_true, ih (by omega), hcell, hb, hin.1, hin.2, true_and, or_assoc]
      · next hin =>
        rw [ih (by omega)]
        constructor
        · rintro (h | h)
          · exact .inl h
          · exact .inr (.inl h)
        · rintro (h | h | ⟨h1, h2, _⟩)
          · exact .inl h
          · exact .inr h
          · exact absurd ⟨h1, h2⟩ hin
    · rw [if_neg hb, ih (by omega)]
      simp [hb]

theorem drawSprite_succ (rows : Nat → Byte) (n x0 y0 : Nat) (c : Canvas) :
    drawSprite rows (n + 1) x0 y0 c = drawRow (rows n) x0 (y0 + n) (drawSprite rows n x0 y0 c) := by
  simp [drawSprite, List.range_succ]

theorem spriteBit_succ (rows : Nat → Byte) (n x0 y0 px py : Nat) :
    spriteBit rows (n + 1) x0 y0 px py =
      (spriteBit rows n x0 y0 px py || (decide (py = y0 + n) && rowBit (rows n) x0 8 px)) := by
  unfold spriteBit rowBit
  by_cases h : py = y0 + n
  · subst h; simp
  · have : (x0 ≤ px ∧ px < x0 + 8 ∧ y0 ≤ py ∧ py < y0 + (n + 1)) ↔ (x0 ≤ px ∧ px < x0 + 8 ∧ y0 ≤ py ∧ py < y0 + n) := by
      omega
    simp [h, this]

theorem spriteBit_own_row (rows : Nat → Byte) (n x0 y0 px : Nat) : spriteBit rows n x0 y0 px (y0 + n) = false := by
  simp [spriteBit]

/-- Every cell under a set sprite bit is inverted, every other cell is unchanged (R146, R148). -/
theorem drawSprite_cell (rows : Nat → Byte) (n x0 y0 : Nat) (c : Canvas) (px py : Nat) (hx : px ≤ 63) (hy : py ≤ 31) :
    FrameBuffer.cell (drawSprite rows n x0 y0 c).fb px py =
      (FrameBuffer.cell c.fb px py ^^ spriteBit rows n x0 y0 px py) := by
  induction n with
  | zero => simp [drawSprite, spriteBit, show ∀ q, ¬ (y0 ≤ q ∧ q < y0) by omega]
  | succ n ih =>
    rw [drawSprite_succ, drawRow_eq, drawCols_cell _ _ _ _ (Nat.le_refl 8) _ _ _ hx hy, ih, spriteBit_succ]
    by_cases h : py = y0 + n
    · subst h; rw [spriteBit_own_row]; simp
    · simp [h]

/-- The collision detector: some cell under a set sprite bit was 1 before the instruction (R146, R148). -/
theorem drawSprite_hit (rows : Nat → Byte) (n x0 y0 : Nat) (c : Canvas) :
    (drawSprite rows n x0 y0 c).hit = true ↔
      (c.hit = true ∨ ∃ px py, px ≤ 63 ∧ py ≤ 31 ∧ spriteBit rows n x0 y0 px py = true ∧
        FrameBuffer.cell c.fb px py = true) := by
  induction n with
  | zero => simp [drawSprite, spriteBit, show ∀ q, ¬ (y0 ≤ q ∧ q < y0) by omega]
  | succ n ih =>
    rw [drawSprite_succ, drawRow_eq, drawCols_hit _ _ _ _ (Nat.le_refl 8), ih]
    constructor
    · rintro ((h | ⟨px, py, h1, h2, h3, h4⟩) | ⟨px, h1, h2, h3, h4⟩)
      · exact .inl h
      · exact .inr ⟨px, py, h1, h2, by rw [spriteBit_succ, h3, Bool.true_or], h4⟩
      · rw [drawSprite_cell _ _ _ _ _ _ _ h1 h2, spriteBit_own_row, Bool.xor_false] at h4
        exact .inr ⟨px, y0 + n, h1, h2, by rw [spriteBit_succ, h3]; simp, h4⟩
    · rintro (h | ⟨px, py, h1, h2, h3, h4⟩)
      · exact .inl (.inl h)
      · rw [spriteBit_succ] at h3
        by_cases hp : py = y0 + n
        · subst hp
          rw [spriteBit_own_row] at h3
          refine .inr ⟨px, h1, h2, by simpa using h3, ?_⟩
          rw [drawSprite_cell _ _ _ _ _ _ _ h1 h2, spriteBit_own_row, Bool.xor_false]; exact h4
        · simp [hp] at h3
          exact .inl (.inr ⟨px, py, h1, h2, h3, h4⟩)

end Sys2Proof.Machine
end

