-- ==== Sys2Proof/Laws/Fields.lean ====
section
/-! SUPPORT. The fields of a word built from its digits: what each field reads from the three shapes of 30_encoding.md
R73 (K: op x kk; R and S: op x y n; A: op nnn), and the numeric value of each field. -/

namespace Sys2Proof

theorem toNat_cat {m n : Nat} (a : BitVec m) (b : BitVec n) : (a ++ b).toNat = a.toNat * 2 ^ n + b.toNat := by
  rw [BitVec.toNat_append, ← Nat.shiftLeft_add_eq_or_of_lt b.isLt, Nat.shiftLeft_eq]

theorem toNat_opField (w : Word) : (opField w).toNat = w.toNat / 4096 := by
  have := w.isLt
  rw [opField, BitVec.extractLsb'_toNat, Nat.shiftRight_eq_div_pow]; omega

theorem toNat_xField (w : Word) : (xField w).toNat = w.toNat / 256 % 16 := by
  rw [xField, BitVec.extractLsb'_toNat, Nat.shiftRight_eq_div_pow]

theorem toNat_yField (w : Word) : (yField w).toNat = w.toNat / 16 % 16 := by
  rw [yField, BitVec.extractLsb'_toNat, Nat.shiftRight_eq_div_pow]

theorem toNat_nField (w : Word) : (nField w).toNat = w.toNat % 16 := by
  rw [nField, BitVec.extractLsb'_toNat, Nat.shiftRight_eq_div_pow, Nat.pow_zero, Nat.div_one]

theorem toNat_kkField (w : Word) : (kkField w).toNat = w.toNat % 256 := by
  rw [kkField, BitVec.extractLsb'_toNat, Nat.shiftRight_eq_div_pow, Nat.pow_zero, Nat.div_one]

theorem toNat_nnnField (w : Word) : (nnnField w).toNat = w.toNat % 4096 := by
  rw [nnnField, BitVec.extractLsb'_toNat, Nat.shiftRight_eq_div_pow, Nat.pow_zero, Nat.div_one]

theorem toNat_hiByte (w : Word) : (hiByte w).toNat = w.toNat / 256 := by
  have := w.isLt
  rw [hiByte, BitVec.extractLsb'_toNat, Nat.shiftRight_eq_div_pow]; omega

theorem toNat_loByte (w : Word) : (loByte w).toNat = w.toNat % 256 := by
  rw [loByte, BitVec.extractLsb'_toNat, Nat.shiftRight_eq_div_pow, Nat.pow_zero, Nat.div_one]

/-- A word laid out as its two bytes and read back (20_memory.md R53). -/
@[simp] theorem wordOfBytes_hi_lo (w : Word) : wordOfBytes (hiByte w) (loByte w) = w := by
  apply BitVec.eq_of_toNat_eq
  change BitVec.toNat (hiByte w ++ loByte w) = _
  rw [toNat_cat, toNat_hiByte, toNat_loByte]; omega

/-- The first of two bytes is the high byte of the word they make (20_memory.md R53). -/
@[simp] theorem hiByte_wordOfBytes (hi lo : Byte) : hiByte (wordOfBytes hi lo) = hi := by
  apply BitVec.eq_of_toNat_eq
  have := lo.isLt
  rw [toNat_hiByte]
  change BitVec.toNat (hi ++ lo) / 256 = _
  rw [toNat_cat]; omega

/-- The second of two bytes is the low byte. -/
@[simp] theorem loByte_wordOfBytes (hi lo : Byte) : loByte (wordOfBytes hi lo) = lo := by
  apply BitVec.eq_of_toNat_eq
  have := lo.isLt
  rw [toNat_loByte]
  change BitVec.toNat (hi ++ lo) % 256 = _
  rw [toNat_cat]; omega

/-! ### Shape K -/

@[simp] theorem opField_shapeK (o : Nibble) (x : Reg) (kk : Byte) : opField (o ++ x ++ kk) = o := by
  have := o.isLt
  have := x.isLt
  have := kk.isLt
  apply BitVec.eq_of_toNat_eq
  rw [toNat_opField]
  change BitVec.toNat (o ++ x ++ kk) / 4096 = _
  rw [toNat_cat, toNat_cat]; omega

@[simp] theorem xField_shapeK (o : Nibble) (x : Reg) (kk : Byte) : xField (o ++ x ++ kk) = x := by
  have := o.isLt
  have := x.isLt
  have := kk.isLt
  apply BitVec.eq_of_toNat_eq
  rw [toNat_xField]
  change BitVec.toNat (o ++ x ++ kk) / 256 % 16 = _
  rw [toNat_cat, toNat_cat]; omega

@[simp] theorem kkField_shapeK (o : Nibble) (x : Reg) (kk : Byte) : kkField (o ++ x ++ kk) = kk := by
  have := o.isLt
  have := x.isLt
  have := kk.isLt
  apply BitVec.eq_of_toNat_eq
  rw [toNat_kkField]
  change BitVec.toNat (o ++ x ++ kk) % 256 = _
  rw [toNat_cat, toNat_cat]; omega

/-! ### Shape R -/

@[simp] theorem opField_shapeR (o : Nibble) (x y : Reg) (n : Nibble) : opField (o ++ x ++ y ++ n) = o := by
  have := o.isLt
  have := x.isLt
  have := y.isLt
  have := n.isLt
  apply BitVec.eq_of_toNat_eq
  rw [toNat_opField]
  change BitVec.toNat (o ++ x ++ y ++ n) / 4096 = _
  rw [toNat_cat, toNat_cat, toNat_cat]; omega

@[simp] theorem xField_shapeR (o : Nibble) (x y : Reg) (n : Nibble) : xField (o ++ x ++ y ++ n) = x := by
  have := o.isLt
  have := x.isLt
  have := y.isLt
  have := n.isLt
  apply BitVec.eq_of_toNat_eq
  rw [toNat_xField]
  change BitVec.toNat (o ++ x ++ y ++ n) / 256 % 16 = _
  rw [toNat_cat, toNat_cat, toNat_cat]; omega

@[simp] theorem yField_shapeR (o : Nibble) (x y : Reg) (n : Nibble) : yField (o ++ x ++ y ++ n) = y := by
  have := o.isLt
  have := x.isLt
  have := y.isLt
  have := n.isLt
  apply BitVec.eq_of_toNat_eq
  rw [toNat_yField]
  change BitVec.toNat (o ++ x ++ y ++ n) / 16 % 16 = _
  rw [toNat_cat, toNat_cat, toNat_cat]; omega

@[simp] theorem nField_shapeR (o : Nibble) (x y : Reg) (n : Nibble) : nField (o ++ x ++ y ++ n) = n := by
  have := o.isLt
  have := x.isLt
  have := y.isLt
  have := n.isLt
  apply BitVec.eq_of_toNat_eq
  rw [toNat_nField]
  change BitVec.toNat (o ++ x ++ y ++ n) % 16 = _
  rw [toNat_cat, toNat_cat, toNat_cat]; omega

/-! ### Shape A -/

@[simp] theorem opField_shapeA (o : Nibble) (nnn : Addr) : opField (o ++ nnn) = o := by
  have := o.isLt
  have := nnn.isLt
  apply BitVec.eq_of_toNat_eq
  rw [toNat_opField]
  change BitVec.toNat (o ++ nnn) / 4096 = _
  rw [toNat_cat]; omega

@[simp] theorem nnnField_shapeA (o : Nibble) (nnn : Addr) : nnnField (o ++ nnn) = nnn := by
  have := o.isLt
  have := nnn.isLt
  apply BitVec.eq_of_toNat_eq
  rw [toNat_nnnField]
  change BitVec.toNat (o ++ nnn) % 4096 = _
  rw [toNat_cat]; omega

/-- A nibble is one of sixteen. -/
theorem nibble_cases : ∀ o : Nibble, o = 0 ∨ o = 1 ∨ o = 2 ∨ o = 3 ∨ o = 4 ∨ o = 5 ∨ o = 6 ∨ o = 7 ∨ o = 8 ∨ o = 9 ∨
    o = 10 ∨ o = 11 ∨ o = 12 ∨ o = 13 ∨ o = 14 ∨ o = 15 := by decide

/-- The low byte of shape K, for the group 0 words whose bits 11:8 are ignored. -/
theorem decode_group0 (k : Nibble) (kk : Byte) : decode (0x0#4 ++ k ++ kk) = decodeGroup0 kk := by
  rw [decode, opField_shapeK, kkField_shapeK]
  rfl

end Sys2Proof
end

