-- ==== Sys2Proof/Laws/Memory.lean ====
section
/-! SUPPORT. Memory: what a read gives after a write, and that every memory operation keeps the canonical form. -/

namespace Sys2Proof.Machine

theorem Memory.read_of_lt {m : Memory} {lo a : Nat} (h : Memory.risesFrom lo m = true) (ha : a < lo) :
    Memory.read m a = Memory.unlisted a := by
  induction m generalizing lo with
  | nil => rfl
  | cons c rest ih =>
    obtain ⟨b, w⟩ := c
    simp only [Memory.risesFrom, Bool.and_eq_true, decide_eq_true_eq] at h
    rw [Memory.read, if_neg (by omega), ih h.2 (by omega)]

theorem Memory.risesFrom_mono {m : Memory} {lo lo' : Nat} (h : Memory.risesFrom lo m = true) (hl : lo' ≤ lo) :
    Memory.risesFrom lo' m = true := by
  cases m with
  | nil => rfl
  | cons c rest =>
    simp only [Memory.risesFrom, Bool.and_eq_true, decide_eq_true_eq] at h ⊢
    exact ⟨by omega, h.2⟩

theorem Memory.risesFrom_cons {m : Memory} {a lo : Nat} (x : Byte) (h : Memory.risesFrom (a + 1) m = true)
    (hl : lo ≤ a) : Memory.risesFrom lo (Memory.cons a x m) = true := by
  unfold Memory.cons
  split
  · exact Memory.risesFrom_mono h (by omega)
  · simp [Memory.risesFrom, hl, h]

theorem Memory.read_cons {m : Memory} {a : Nat} (x : Byte) (h : Memory.risesFrom (a + 1) m = true) (b : Nat) :
    Memory.read (Memory.cons a x m) b = if b = a then x else Memory.read m b := by
  unfold Memory.cons
  split
  · next hx =>
    split
    · next hb => rw [hb, Memory.read_of_lt h (by omega), hx]
    · rfl
  · rfl

theorem Memory.risesFrom_write {m : Memory} {a lo : Nat} (x : Byte) (h : Memory.risesFrom lo m = true)
    (hl : lo ≤ a) : Memory.risesFrom lo (Memory.write a x m) = true := by
  induction m generalizing lo with
  | nil => exact Memory.risesFrom_cons x rfl hl
  | cons c rest ih =>
    obtain ⟨b, w⟩ := c
    simp only [Memory.risesFrom, Bool.and_eq_true, decide_eq_true_eq] at h
    rw [Memory.write]
    split
    · next hab => exact Memory.risesFrom_cons x (by simp [Memory.risesFrom, h.2]; omega) hl
    · split
      · next hab => exact Memory.risesFrom_cons x (hab ▸ h.2) hl
      · simp only [Memory.risesFrom, Bool.and_eq_true, decide_eq_true_eq]
        exact ⟨h.1, ih h.2 (by omega)⟩

/-- A read after a write: the value written at that address, what was there at every other. -/
theorem Memory.read_write {m : Memory} {lo : Nat} (h : Memory.risesFrom lo m = true) (a : Nat) (x : Byte) (b : Nat) :
    Memory.read (Memory.write a x m) b = if b = a then x else Memory.read m b := by
  induction m generalizing lo with
  | nil => exact Memory.read_cons x rfl b
  | cons c rest ih =>
    obtain ⟨d, w⟩ := c
    simp only [Memory.risesFrom, Bool.and_eq_true, decide_eq_true_eq] at h
    rw [Memory.write]
    split
    · next hab => exact Memory.read_cons x (by simp [Memory.risesFrom, h.2]; omega) b
    · split
      · next hab =>
        rw [Memory.read_cons x (hab ▸ h.2) b, Memory.read]
        split <;> simp_all
      · next hab =>
        rw [Memory.read, Memory.read, ih h.2]
        split
        · next hbd => rw [if_neg (by omega)]
        · rfl

/-- Every listed cell is below 4096 and differs from what an unlisted address reads as. -/
def Memory.cellsOk (m : Memory) : Bool := m.all (fun c => decide (c.1 < 4096) && c.2 != Memory.unlisted c.1)

theorem Memory.cellsOk_cons {m : Memory} {a : Nat} {x : Byte} (h : Memory.cellsOk m = true) (ha : a < 4096) :
    Memory.cellsOk (Memory.cons a x m) = true := by
  unfold Memory.cons
  split
  · exact h
  · next hx => simpa [Memory.cellsOk, ha, hx] using h

theorem Memory.cellsOk_write {m : Memory} {a : Nat} {x : Byte} (h : Memory.cellsOk m = true) (ha : a < 4096) :
    Memory.cellsOk (Memory.write a x m) = true := by
  induction m with
  | nil => exact Memory.cellsOk_cons h ha
  | cons c rest ih =>
    obtain ⟨b, w⟩ := c
    have hr : Memory.cellsOk rest = true := by
      rw [Memory.cellsOk, List.all_cons, Bool.and_eq_true] at h
      exact h.2
    rw [Memory.write]
    split
    · exact Memory.cellsOk_cons h ha
    · split
      · exact Memory.cellsOk_cons hr ha
      · rw [Memory.cellsOk, List.all_cons, Bool.and_eq_true] at h ⊢
        exact ⟨h.1, ih hr⟩

theorem Memory.wf_iff (m : Memory) : m.wf = true ↔ Memory.risesFrom 0 m = true ∧ Memory.cellsOk m = true := by
  simp [Memory.wf, Memory.cellsOk]

/-- A write keeps the canonical form. -/
theorem Memory.wf_write {m : Memory} (h : m.wf = true) {a : Nat} (ha : a < 4096) (x : Byte) :
    (m.write a x).wf = true := by
  rw [Memory.wf_iff] at h ⊢
  exact ⟨Memory.risesFrom_write x h.1 (Nat.zero_le a), Memory.cellsOk_write h.2 ha⟩

theorem maskAddr_lt (a : Nat) : maskAddr a < 4096 := Nat.mod_lt a (by decide)

/-- Loading a byte sequence keeps the canonical form. -/
theorem Memory.wf_load (bs : List Byte) : ∀ {m : Memory} (addr : Nat), m.wf = true → (Memory.load addr bs m).wf = true := by
  induction bs with
  | nil => intro m addr h; exact h
  | cons b bs ih => intro m addr h; exact ih (addr + 1) (Memory.wf_write h (maskAddr_lt addr) b)

/-- `MemWrite` then `MemRead` (20_memory.md R50, R51). -/
theorem State.readByte_writeByte {s : State} (h : s.mem.wf = true) (a : Nat) (x : Byte) (b : Nat) :
    (s.writeByte a x).readByte b = if maskAddr b = maskAddr a then x else s.readByte b :=
  Memory.read_write ((Memory.wf_iff _).1 h).1 (maskAddr a) x (maskAddr b)

theorem State.wf_writeByte {s : State} (h : s.mem.wf = true) (a : Nat) (x : Byte) : (s.writeByte a x).mem.wf = true :=
  Memory.wf_write h (maskAddr_lt a) x

/-- What every cell holds after a byte sequence that fits below 4096 has been loaded (70_reset_and_hazards.md R233). -/
theorem Memory.read_load (bs : List Byte) : ∀ {m : Memory} {addr : Nat} (a : Nat), m.wf = true →
    addr + bs.length ≤ 4096 → Memory.read (Memory.load addr bs m) a =
      if h : addr ≤ a ∧ a < addr + bs.length then bs[a - addr]'(by omega) else Memory.read m a := by
  induction bs with
  | nil => intro m addr a _ _; rw [dif_neg (by simp)]; rfl
  | cons b bs ih =>
    intro m addr a hw hl
    simp only [List.length_cons] at hl ⊢
    have hmask : maskAddr addr = addr := by simp [maskAddr]; omega
    rw [Memory.load, ih _ (Memory.wf_write hw (maskAddr_lt _) b) (by omega), hmask,
      Memory.read_write ((Memory.wf_iff _).1 hw).1]
    by_cases h : addr + 1 ≤ a ∧ a < addr + 1 + bs.length
    · rw [dif_pos h, dif_pos (by omega)]
      simp only [show a - addr = (a - (addr + 1)) + 1 by omega, List.getElem_cons_succ]
    · rw [dif_neg h]
      by_cases ha : a = addr
      · subst ha; simp
      · rw [if_neg ha, dif_neg (by omega)]

/-! ### A block of bytes -/

theorem State.writeBytes_succ (s : State) (addr n : Nat) (f : Nat → Byte) :
    s.writeBytes addr (n + 1) f = (s.writeBytes addr n f).writeByte (addr + n) (f n) := by
  simp [State.writeBytes, State.writeByte, Memory.writeBlock, List.range_succ]

/-- A block write keeps the canonical form. -/
theorem State.wf_writeBytes {s : State} (h : s.mem.wf = true) (addr n : Nat) (f : Nat → Byte) :
    (s.writeBytes addr n f).mem.wf = true := by
  induction n with
  | zero => exact h
  | succ n ih => rw [State.writeBytes_succ]; exact State.wf_writeByte ih _ _

/-- Outside the block nothing changes. -/
theorem State.readByte_writeBytes_outside {s : State} (h : s.mem.wf = true) {addr n b : Nat} {f : Nat → Byte}
    (hb : ∀ k, k < n → maskAddr b ≠ maskAddr (addr + k)) : (s.writeBytes addr n f).readByte b = s.readByte b := by
  induction n with
  | zero => rfl
  | succ n ih =>
    rw [State.writeBytes_succ, State.readByte_writeByte (State.wf_writeBytes h _ _ _), if_neg (hb n (Nat.lt_succ_self n)),
      ih (fun k hk => hb k (Nat.lt_succ_of_lt hk))]

/-- Inside the block each cell holds its byte; the cells are distinct (20_memory.md R56). -/
theorem State.readByte_writeBytes_inside {s : State} (h : s.mem.wf = true) {addr n k : Nat} {f : Nat → Byte}
    (hn : n ≤ 4096) (hk : k < n) : (s.writeBytes addr n f).readByte (addr + k) = f k := by
  induction n with
  | zero => omega
  | succ n ih =>
    rw [State.writeBytes_succ, State.readByte_writeByte (State.wf_writeBytes h _ _ _)]
    unfold maskAddr at *
    by_cases hkn : k = n
    · rw [if_pos (by rw [hkn]), hkn]
    · rw [if_neg (by omega), ih (by omega) (by omega)]

end Sys2Proof.Machine
end

