-- ==== Sys2Proof/Laws/Operands.lean ====
section
/-! SUPPORT. The numeric value of each operand form, flag and timer countdown (30_encoding.md R74, 41_alu.md R132,
45_timers_index_memory.md R175, R176, 60_exceptions.md R212), and a word put together again from its fields. -/

namespace Sys2Proof

/-- A word is its high nibble, x and kk (R73, shape K). -/
theorem word_eq_shapeK (w : Word) : w = opField w ++ xField w ++ kkField w := by
  apply BitVec.eq_of_toNat_eq
  rw [toNat_cat, toNat_cat, toNat_opField, toNat_xField, toNat_kkField]; omega

/-- A word is its four digits (R73, shape R). -/
theorem word_eq_shapeR (w : Word) : w = opField w ++ xField w ++ yField w ++ nField w := by
  apply BitVec.eq_of_toNat_eq
  rw [toNat_cat, toNat_cat, toNat_cat, toNat_opField, toNat_xField, toNat_yField, toNat_nField]; omega

/-- A word is its high nibble and nnn (R73, shape A). -/
theorem word_eq_shapeA (w : Word) : w = opField w ++ nnnField w := by
  apply BitVec.eq_of_toNat_eq
  rw [toNat_cat, toNat_opField, toNat_nnnField]; omega

namespace Machine

theorem toNat_zextAddr (nnn : Addr) : (zextAddr nnn).toNat = nnn.toNat := by
  have := nnn.isLt
  simp [zextAddr]; omega

theorem toNat_zextByte (val : Byte) : (zextByte val).toNat = val.toNat := by
  have := val.isLt
  simp [zextByte]; omega

theorem toNat_glyphAddr (digit : Byte) : (glyphAddr digit).toNat = 0x50 + 5 * digit.toNat := by
  have := digit.isLt
  unfold glyphAddr
  rw [BitVec.toNat_add, BitVec.toNat_mul, toNat_zextByte]; simp; omega

/-- The three digits as numbers. -/
theorem toNat_bcdDigit (val : Byte) : (bcdDigit val 0).toNat = val.toNat / 100 ∧
    (bcdDigit val 1).toNat = val.toNat / 10 % 10 ∧ (bcdDigit val 2).toNat = val.toNat % 10 := by
  simp [bcdDigit, BitVec.toNat_udiv, BitVec.toNat_umod]

theorem toNat_flagByte (f : Bool) : (flagByte f).toNat = if f then 1 else 0 := by cases f <;> rfl

theorem regAt_toNat (s : State) (r : Reg) : s.regAt r.toNat = s.getV r := by simp [State.regAt]

/-- By 1 if greater than 0 (R212). -/
theorem toNat_countdown (t : Byte) : (countdown t).toNat = t.toNat - 1 := by
  unfold countdown
  split
  · next h => subst h; rfl
  · next h =>
    have := t.isLt
    have : t.toNat ≠ 0 := fun e => h (BitVec.eq_of_toNat_eq e)
    rw [BitVec.toNat_sub]; simp; omega

/-- Every register after a flag write. -/
theorem State.getV_setFlag (s : State) (f : Bool) (r : Reg) :
    (s.setFlag f).getV r = if r = vf then flagByte f else s.getV r := State.getV_setV _ _ _ _

end Machine
end Sys2Proof
end

