-- ==== Sys2Proof/Laws/PerInstr.lean ====
section
/-! SUPPORT. Per instruction: the word an instruction is encoded as selects the instruction's own row of the decode
table (30_encoding.md R75), and that row is in the table. -/

namespace Sys2Proof.Laws.RowMatch

/-- The instruction's row is one of the 34, and the instruction's word selects it. -/
def Statement (i : Instr) : Prop := rowOf i ∈ opcodeRows ∧ (rowOf i).selects (encode i) = true

theorem cls : Statement .cls := by
  refine ⟨List.mem_of_elem_eq_true rfl, ?_⟩
  decide

theorem ret : Statement .ret := by
  refine ⟨List.mem_of_elem_eq_true rfl, ?_⟩
  decide

theorem jp (nnn : Addr) : Statement (.jp nnn) := by
  refine ⟨List.mem_of_elem_eq_true rfl, ?_⟩
  refine beq_iff_eq.2 ?_
  show (0x1#4 ++ nnn : BitVec (4 + 12)) &&& (0xF#4 ++ 0x0#12) = 0x1#4 ++ 0x0#12
  rw [BitVec.and_append]; simp

theorem call (nnn : Addr) : Statement (.call nnn) := by
  refine ⟨List.mem_of_elem_eq_true rfl, ?_⟩
  refine beq_iff_eq.2 ?_
  show (0x2#4 ++ nnn : BitVec (4 + 12)) &&& (0xF#4 ++ 0x0#12) = 0x2#4 ++ 0x0#12
  rw [BitVec.and_append]; simp

theorem seImm (x : Reg) (kk : Byte) : Statement (.seImm x kk) := by
  refine ⟨List.mem_of_elem_eq_true rfl, ?_⟩
  refine beq_iff_eq.2 ?_
  show (0x3#4 ++ x ++ kk : BitVec (4 + 4 + 8)) &&& (0xF#4 ++ 0x0#4 ++ 0x0#8) = 0x3#4 ++ 0x0#4 ++ 0x0#8
  rw [BitVec.and_append, BitVec.and_append]; simp

theorem sneImm (x : Reg) (kk : Byte) : Statement (.sneImm x kk) := by
  refine ⟨List.mem_of_elem_eq_true rfl, ?_⟩
  refine beq_iff_eq.2 ?_
  show (0x4#4 ++ x ++ kk : BitVec (4 + 4 + 8)) &&& (0xF#4 ++ 0x0#4 ++ 0x0#8) = 0x4#4 ++ 0x0#4 ++ 0x0#8
  rw [BitVec.and_append, BitVec.and_append]; simp

theorem seReg (x : Reg) (y : Reg) : Statement (.seReg x y) := by
  refine ⟨List.mem_of_elem_eq_true rfl, ?_⟩
  refine beq_iff_eq.2 ?_
  show (0x5#4 ++ x ++ y ++ 0x0#4 : BitVec (4 + 4 + 4 + 4)) &&& (0xF#4 ++ 0x0#4 ++ 0x0#4 ++ 0x0#4) = 0x5#4 ++ 0x0#4 ++ 0x0#4 ++ 0x0#4
  rw [BitVec.and_append, BitVec.and_append, BitVec.and_append]; simp

theorem ldImm (x : Reg) (kk : Byte) : Statement (.ldImm x kk) := by
  refine ⟨List.mem_of_elem_eq_true rfl, ?_⟩
  refine beq_iff_eq.2 ?_
  show (0x6#4 ++ x ++ kk : BitVec (4 + 4 + 8)) &&& (0xF#4 ++ 0x0#4 ++ 0x0#8) = 0x6#4 ++ 0x0#4 ++ 0x0#8
  rw [BitVec.and_append, BitVec.and_append]; simp

theorem addImm (x : Reg) (kk : Byte) : Statement (.addImm x kk) := by
  refine ⟨List.mem_of_elem_eq_true rfl, ?_⟩
  refine beq_iff_eq.2 ?_
  show (0x7#4 ++ x ++ kk : BitVec (4 + 4 + 8)) &&& (0xF#4 ++ 0x0#4 ++ 0x0#8) = 0x7#4 ++ 0x0#4 ++ 0x0#8
  rw [BitVec.and_append, BitVec.and_append]; simp

theorem ldReg (x : Reg) (y : Reg) : Statement (.ldReg x y) := by
  refine ⟨List.mem_of_elem_eq_true rfl, ?_⟩
  refine beq_iff_eq.2 ?_
  show (0x8#4 ++ x ++ y ++ 0x0#4 : BitVec (4 + 4 + 4 + 4)) &&& (0xF#4 ++ 0x0#4 ++ 0x0#4 ++ 0xF#4) = 0x8#4 ++ 0x0#4 ++ 0x0#4 ++ 0x0#4
  rw [BitVec.and_append, BitVec.and_append, BitVec.and_append]; simp

theorem orReg (x : Reg) (y : Reg) : Statement (.orReg x y) := by
  refine ⟨List.mem_of_elem_eq_true rfl, ?_⟩
  refine beq_iff_eq.2 ?_
  show (0x8#4 ++ x ++ y ++ 0x1#4 : BitVec (4 + 4 + 4 + 4)) &&& (0xF#4 ++ 0x0#4 ++ 0x0#4 ++ 0xF#4) = 0x8#4 ++ 0x0#4 ++ 0x0#4 ++ 0x1#4
  rw [BitVec.and_append, BitVec.and_append, BitVec.and_append]; simp

theorem andReg (x : Reg) (y : Reg) : Statement (.andReg x y) := by
  refine ⟨List.mem_of_elem_eq_true rfl, ?_⟩
  refine beq_iff_eq.2 ?_
  show (0x8#4 ++ x ++ y ++ 0x2#4 : BitVec (4 + 4 + 4 + 4)) &&& (0xF#4 ++ 0x0#4 ++ 0x0#4 ++ 0xF#4) = 0x8#4 ++ 0x0#4 ++ 0x0#4 ++ 0x2#4
  rw [BitVec.and_append, BitVec.and_append, BitVec.and_append]; simp

theorem xorReg (x : Reg) (y : Reg) : Statement (.xorReg x y) := by
  refine ⟨List.mem_of_elem_eq_true rfl, ?_⟩
  refine beq_iff_eq.2 ?_
  show (0x8#4 ++ x ++ y ++ 0x3#4 : BitVec (4 + 4 + 4 + 4)) &&& (0xF#4 ++ 0x0#4 ++ 0x0#4 ++ 0xF#4) = 0x8#4 ++ 0x0#4 ++ 0x0#4 ++ 0x3#4
  rw [BitVec.and_append, BitVec.and_append, BitVec.and_append]; simp

theorem addReg (x : Reg) (y : Reg) : Statement (.addReg x y) := by
  refine ⟨List.mem_of_elem_eq_true rfl, ?_⟩
  refine beq_iff_eq.2 ?_
  show (0x8#4 ++ x ++ y ++ 0x4#4 : BitVec (4 + 4 + 4 + 4)) &&& (0xF#4 ++ 0x0#4 ++ 0x0#4 ++ 0xF#4) = 0x8#4 ++ 0x0#4 ++ 0x0#4 ++ 0x4#4
  rw [BitVec.and_append, BitVec.and_append, BitVec.and_append]; simp

theorem subReg (x : Reg) (y : Reg) : Statement (.subReg x y) := by
  refine ⟨List.mem_of_elem_eq_true rfl, ?_⟩
  refine beq_iff_eq.2 ?_
  show (0x8#4 ++ x ++ y ++ 0x5#4 : BitVec (4 + 4 + 4 + 4)) &&& (0xF#4 ++ 0x0#4 ++ 0x0#4 ++ 0xF#4) = 0x8#4 ++ 0x0#4 ++ 0x0#4 ++ 0x5#4
  rw [BitVec.and_append, BitVec.and_append, BitVec.and_append]; simp

theorem shr (x : Reg) : Statement (.shr x) := by
  refine ⟨List.mem_of_elem_eq_true rfl, ?_⟩
  refine beq_iff_eq.2 ?_
  show (0x8#4 ++ x ++ 0x0#4 ++ 0x6#4 : BitVec (4 + 4 + 4 + 4)) &&& (0xF#4 ++ 0x0#4 ++ 0x0#4 ++ 0xF#4) = 0x8#4 ++ 0x0#4 ++ 0x0#4 ++ 0x6#4
  rw [BitVec.and_append, BitVec.and_append, BitVec.and_append]; simp

theorem subn (x : Reg) (y : Reg) : Statement (.subn x y) := by
  refine ⟨List.mem_of_elem_eq_true rfl, ?_⟩
  refine beq_iff_eq.2 ?_
  show (0x8#4 ++ x ++ y ++ 0x7#4 : BitVec (4 + 4 + 4 + 4)) &&& (0xF#4 ++ 0x0#4 ++ 0x0#4 ++ 0xF#4) = 0x8#4 ++ 0x0#4 ++ 0x0#4 ++ 0x7#4
  rw [BitVec.and_append, BitVec.and_append, BitVec.and_append]; simp

theorem shl (x : Reg) : Statement (.shl x) := by
  refine ⟨List.mem_of_elem_eq_true rfl, ?_⟩
  refine beq_iff_eq.2 ?_
  show (0x8#4 ++ x ++ 0x0#4 ++ 0xE#4 : BitVec (4 + 4 + 4 + 4)) &&& (0xF#4 ++ 0x0#4 ++ 0x0#4 ++ 0xF#4) = 0x8#4 ++ 0x0#4 ++ 0x0#4 ++ 0xE#4
  rw [BitVec.and_append, BitVec.and_append, BitVec.and_append]; simp

theorem sneReg (x : Reg) (y : Reg) : Statement (.sneReg x y) := by
  refine ⟨List.mem_of_elem_eq_true rfl, ?_⟩
  refine beq_iff_eq.2 ?_
  show (0x9#4 ++ x ++ y ++ 0x0#4 : BitVec (4 + 4 + 4 + 4)) &&& (0xF#4 ++ 0x0#4 ++ 0x0#4 ++ 0x0#4) = 0x9#4 ++ 0x0#4 ++ 0x0#4 ++ 0x0#4
  rw [BitVec.and_append, BitVec.and_append, BitVec.and_append]; simp

theorem ldI (nnn : Addr) : Statement (.ldI nnn) := by
  refine ⟨List.mem_of_elem_eq_true rfl, ?_⟩
  refine beq_iff_eq.2 ?_
  show (0xA#4 ++ nnn : BitVec (4 + 12)) &&& (0xF#4 ++ 0x0#12) = 0xA#4 ++ 0x0#12
  rw [BitVec.and_append]; simp

theorem jpV0 (nnn : Addr) : Statement (.jpV0 nnn) := by
  refine ⟨List.mem_of_elem_eq_true rfl, ?_⟩
  refine beq_iff_eq.2 ?_
  show (0xB#4 ++ nnn : BitVec (4 + 12)) &&& (0xF#4 ++ 0x0#12) = 0xB#4 ++ 0x0#12
  rw [BitVec.and_append]; simp

theorem rnd (x : Reg) (kk : Byte) : Statement (.rnd x kk) := by
  refine ⟨List.mem_of_elem_eq_true rfl, ?_⟩
  refine beq_iff_eq.2 ?_
  show (0xC#4 ++ x ++ kk : BitVec (4 + 4 + 8)) &&& (0xF#4 ++ 0x0#4 ++ 0x0#8) = 0xC#4 ++ 0x0#4 ++ 0x0#8
  rw [BitVec.and_append, BitVec.and_append]; simp

theorem drw (x : Reg) (y : Reg) (n : Nibble) : Statement (.drw x y n) := by
  refine ⟨List.mem_of_elem_eq_true rfl, ?_⟩
  refine beq_iff_eq.2 ?_
  show (0xD#4 ++ x ++ y ++ n : BitVec (4 + 4 + 4 + 4)) &&& (0xF#4 ++ 0x0#4 ++ 0x0#4 ++ 0x0#4) = 0xD#4 ++ 0x0#4 ++ 0x0#4 ++ 0x0#4
  rw [BitVec.and_append, BitVec.and_append, BitVec.and_append]; simp

theorem skp (x : Reg) : Statement (.skp x) := by
  refine ⟨List.mem_of_elem_eq_true rfl, ?_⟩
  refine beq_iff_eq.2 ?_
  show (0xE#4 ++ x ++ 0x9E#8 : BitVec (4 + 4 + 8)) &&& (0xF#4 ++ 0x0#4 ++ 0xFF#8) = 0xE#4 ++ 0x0#4 ++ 0x9E#8
  rw [BitVec.and_append, BitVec.and_append]; simp

theorem sknp (x : Reg) : Statement (.sknp x) := by
  refine ⟨List.mem_of_elem_eq_true rfl, ?_⟩
  refine beq_iff_eq.2 ?_
  show (0xE#4 ++ x ++ 0xA1#8 : BitVec (4 + 4 + 8)) &&& (0xF#4 ++ 0x0#4 ++ 0xFF#8) = 0xE#4 ++ 0x0#4 ++ 0xA1#8
  rw [BitVec.and_append, BitVec.and_append]; simp

theorem ldVxDT (x : Reg) : Statement (.ldVxDT x) := by
  refine ⟨List.mem_of_elem_eq_true rfl, ?_⟩
  refine beq_iff_eq.2 ?_
  show (0xF#4 ++ x ++ 0x07#8 : BitVec (4 + 4 + 8)) &&& (0xF#4 ++ 0x0#4 ++ 0xFF#8) = 0xF#4 ++ 0x0#4 ++ 0x7#8
  rw [BitVec.and_append, BitVec.and_append]; simp

theorem ldVxK (x : Reg) : Statement (.ldVxK x) := by
  refine ⟨List.mem_of_elem_eq_true rfl, ?_⟩
  refine beq_iff_eq.2 ?_
  show (0xF#4 ++ x ++ 0x0A#8 : BitVec (4 + 4 + 8)) &&& (0xF#4 ++ 0x0#4 ++ 0xFF#8) = 0xF#4 ++ 0x0#4 ++ 0xA#8
  rw [BitVec.and_append, BitVec.and_append]; simp

theorem ldDTVx (x : Reg) : Statement (.ldDTVx x) := by
  refine ⟨List.mem_of_elem_eq_true rfl, ?_⟩
  refine beq_iff_eq.2 ?_
  show (0xF#4 ++ x ++ 0x15#8 : BitVec (4 + 4 + 8)) &&& (0xF#4 ++ 0x0#4 ++ 0xFF#8) = 0xF#4 ++ 0x0#4 ++ 0x15#8
  rw [BitVec.and_append, BitVec.and_append]; simp

theorem ldSTVx (x : Reg) : Statement (.ldSTVx x) := by
  refine ⟨List.mem_of_elem_eq_true rfl, ?_⟩
  refine beq_iff_eq.2 ?_
  show (0xF#4 ++ x ++ 0x18#8 : BitVec (4 + 4 + 8)) &&& (0xF#4 ++ 0x0#4 ++ 0xFF#8) = 0xF#4 ++ 0x0#4 ++ 0x18#8
  rw [BitVec.and_append, BitVec.and_append]; simp

theorem addI (x : Reg) : Statement (.addI x) := by
  refine ⟨List.mem_of_elem_eq_true rfl, ?_⟩
  refine beq_iff_eq.2 ?_
  show (0xF#4 ++ x ++ 0x1E#8 : BitVec (4 + 4 + 8)) &&& (0xF#4 ++ 0x0#4 ++ 0xFF#8) = 0xF#4 ++ 0x0#4 ++ 0x1E#8
  rw [BitVec.and_append, BitVec.and_append]; simp

theorem ldF (x : Reg) : Statement (.ldF x) := by
  refine ⟨List.mem_of_elem_eq_true rfl, ?_⟩
  refine beq_iff_eq.2 ?_
  show (0xF#4 ++ x ++ 0x29#8 : BitVec (4 + 4 + 8)) &&& (0xF#4 ++ 0x0#4 ++ 0xFF#8) = 0xF#4 ++ 0x0#4 ++ 0x29#8
  rw [BitVec.and_append, BitVec.and_append]; simp

theorem ldB (x : Reg) : Statement (.ldB x) := by
  refine ⟨List.mem_of_elem_eq_true rfl, ?_⟩
  refine beq_iff_eq.2 ?_
  show (0xF#4 ++ x ++ 0x33#8 : BitVec (4 + 4 + 8)) &&& (0xF#4 ++ 0x0#4 ++ 0xFF#8) = 0xF#4 ++ 0x0#4 ++ 0x33#8
  rw [BitVec.and_append, BitVec.and_append]; simp

theorem storeRegs (x : Reg) : Statement (.storeRegs x) := by
  refine ⟨List.mem_of_elem_eq_true rfl, ?_⟩
  refine beq_iff_eq.2 ?_
  show (0xF#4 ++ x ++ 0x55#8 : BitVec (4 + 4 + 8)) &&& (0xF#4 ++ 0x0#4 ++ 0xFF#8) = 0xF#4 ++ 0x0#4 ++ 0x55#8
  rw [BitVec.and_append, BitVec.and_append]; simp

theorem loadRegs (x : Reg) : Statement (.loadRegs x) := by
  refine ⟨List.mem_of_elem_eq_true rfl, ?_⟩
  refine beq_iff_eq.2 ?_
  show (0xF#4 ++ x ++ 0x65#8 : BitVec (4 + 4 + 8)) &&& (0xF#4 ++ 0x0#4 ++ 0xFF#8) = 0xF#4 ++ 0x0#4 ++ 0x65#8
  rw [BitVec.and_append, BitVec.and_append]; simp

end Sys2Proof.Laws.RowMatch
end

