-- ==== Sys2Proof/Laws/Run.lean ====
section
/-! SUPPORT. What a fetch reads (20_memory.md R52), and that instructions and ticks do not look at the environment's
bookkeeping (00_scope.md R9), so that steps and events can be held against each other. -/

namespace Sys2Proof.Machine

theorem State.hiByte_fetch (s : State) (a : Word) : hiByte (s.fetch a) = s.readByte a.toNat := hiByte_wordOfBytes _ _

theorem State.loByte_fetch (s : State) (a : Word) : loByte (s.fetch a) = s.readByte (a.toNat + 1) := loByte_wordOfBytes _ _

/-- A read depends on the masked address only (R50). -/
theorem State.readByte_congr {s : State} {a b : Nat} (h : maskAddr a = maskAddr b) : s.readByte a = s.readByte b := by
  rw [State.readByte, State.readByte, h]

/-- The state with other bookkeeping: its place in the frame and the two counters. -/
def State.withBookkeeping (s : State) (p : Phase) (f k : Nat) : State := { s with phase := p, frameNo := f, tickNo := k }

/-- An instruction neither reads nor writes the bookkeeping. -/
theorem exec_withBookkeeping (i : Instr) (s : State) (p : Phase) (f k : Nat) :
    ∃ t, exec i s = .next t ∧ exec i (s.withBookkeeping p f k) = .next (t.withBookkeeping p f k) := by
  cases i <;> exact ⟨_, rfl, rfl⟩

/-- Nor does a tick. -/
theorem tick_withBookkeeping (r : Draw) (s : State) (p : Phase) (f k : Nat) :
    ∃ t, tick r s = .next t ∧ tick r (s.withBookkeeping p f k) = .next (t.withBookkeeping p f k) := by
  unfold tick
  have hf : (s.withBookkeeping p f k).fetch (s.withBookkeeping p f k).pc = s.fetch s.pc := rfl
  rw [hf]
  rcases decode (s.fetch s.pc) with i | w
  · exact exec_withBookkeeping i (s.postFetch r) p f k
  · exact ⟨_, rfl, rfl⟩

/-- One more step of a run. -/
theorem run_succ {k : Nat} {s t : State} (h : step s = .next t) :
    Host.Core.run Sys2Proof.core (k + 1) s = Host.Core.run Sys2Proof.core k t := by
  have h' : Host.Core.step Sys2Proof.core s = .next t := h
  simp only [Host.Core.run]
  rw [h']

end Sys2Proof.Machine
end

