-- ==== Sys2Proof/Tests/Slice0.lean ====
section
/-! SUPPORT. The model's own tests. Expected results are the vectors S1 to S9 and T1 to T176 of spec/95_test_vectors.md
(the name or the comment gives the vector), worked by hand there from the rules; words are written out digit by digit
from 30_encoding.md R75. The last part holds a witness for the hypotheses of every statement that has some. -/

namespace Sys2Proof.Tests

open Sys2Proof Sys2Proof.Machine

/-- The state after one TICK on the word placed at PC; draws are counted from 0, so draw 0 is r = 1 (section 1 of
95_test_vectors.md). -/
def after (s : State) (w : Nat) (r : Draw := 0) : State :=
  match tick r (s.withFetchWord 16 w) with
  | .next t => t
  | _ => s

/-- S0 with one register set. -/
def withV (x : Reg) (val : Byte) : State := State.reset.setV x val

/-- S0 with two registers set. -/
def withV2 (x : Reg) (a : Byte) (y : Reg) (b : Byte) : State := (withV x a).setV y b

/-- S0 with the given keys down. -/
def withKeys (keys : BitVec 16) (s : State) : State := { s with key := keys }

/-- A state with one row of the framebuffer set. -/
def withRow (y : Fin 32) (row : BitVec 64) (s : State) : State := s.setFB (s.fb.set y.val row y.isLt)

/-! ### Well-formed and ill-formed words (30_encoding.md R76) -/

theorem test_wf_group0 : wellFormedWord 0x00E0 = true ∧ wellFormedWord 0x00EE = true ∧ wellFormedWord 0x00E1 = false ∧
    wellFormedWord 0x0123 = false := by decide
theorem test_wf_group8 : wellFormedWord 0x812E = true ∧ wellFormedWord 0x8127 = true ∧ wellFormedWord 0x8128 = false ∧
    wellFormedWord 0x812F = false := by decide
theorem test_wf_groupE : wellFormedWord 0xE39E = true ∧ wellFormedWord 0xE3A1 = true ∧ wellFormedWord 0xE300 = false := by
  decide
theorem test_wf_groupF : wellFormedWord 0xF165 = true ∧ wellFormedWord 0xF10A = true ∧ wellFormedWord 0xF175 = false ∧
    wellFormedWord 0xF100 = false := by decide
theorem test_wf_others : wellFormedWord 0x5127 = true ∧ wellFormedWord 0xD000 = true ∧ wellFormedWord 0xBFFF = true := by
  decide
/-- A sequence of fewer than two bytes is no instruction. -/
theorem test_decode_truncated : decodeBytes [0x00] = (.unrecognised .truncated, [0x00]) := by decide

/-! ### Decoding: a word of every constructor -/

theorem test_decode_cls : decode 0x00E0 = .instr .cls ∧ decode 0x03E0 = .instr .cls := by decide
theorem test_decode_ret : decode 0x00EE = .instr .ret ∧ decode 0x05EE = .instr .ret := by decide
theorem test_decode_jp : decode 0x1ABC = .instr (.jp 0xABC) := by decide
theorem test_decode_call : decode 0x2ABC = .instr (.call 0xABC) := by decide
theorem test_decode_seImm : decode 0x3A7C = .instr (.seImm 0xA 0x7C) := by decide
theorem test_decode_sneImm : decode 0x4A7C = .instr (.sneImm 0xA 0x7C) := by decide
theorem test_decode_seReg : decode 0x5A70 = .instr (.seReg 0xA 0x7) := by decide
theorem test_decode_ldImm : decode 0x6A7C = .instr (.ldImm 0xA 0x7C) := by decide
theorem test_decode_addImm : decode 0x7A7C = .instr (.addImm 0xA 0x7C) := by decide
theorem test_decode_ldReg : decode 0x8A70 = .instr (.ldReg 0xA 0x7) := by decide
theorem test_decode_orReg : decode 0x8A71 = .instr (.orReg 0xA 0x7) := by decide
theorem test_decode_andReg : decode 0x8A72 = .instr (.andReg 0xA 0x7) := by decide
theorem test_decode_xorReg : decode 0x8A73 = .instr (.xorReg 0xA 0x7) := by decide
theorem test_decode_addReg : decode 0x8A74 = .instr (.addReg 0xA 0x7) := by decide
theorem test_decode_subReg : decode 0x8A75 = .instr (.subReg 0xA 0x7) := by decide
theorem test_decode_shr : decode 0x8A76 = .instr (.shr 0xA) := by decide
theorem test_decode_subn : decode 0x8A77 = .instr (.subn 0xA 0x7) := by decide
theorem test_decode_shl : decode 0x8A7E = .instr (.shl 0xA) := by decide
theorem test_decode_sneReg : decode 0x9A70 = .instr (.sneReg 0xA 0x7) := by decide
theorem test_decode_ldI : decode 0xAABC = .instr (.ldI 0xABC) := by decide
theorem test_decode_jpV0 : decode 0xBABC = .instr (.jpV0 0xABC) := by decide
theorem test_decode_rnd : decode 0xCA7C = .instr (.rnd 0xA 0x7C) := by decide
theorem test_decode_drw : decode 0xDA7C = .instr (.drw 0xA 0x7 0xC) := by decide
theorem test_decode_skp : decode 0xEA9E = .instr (.skp 0xA) := by decide
theorem test_decode_sknp : decode 0xEAA1 = .instr (.sknp 0xA) := by decide
theorem test_decode_ldVxDT : decode 0xFA07 = .instr (.ldVxDT 0xA) := by decide
theorem test_decode_ldVxK : decode 0xFA0A = .instr (.ldVxK 0xA) := by decide
theorem test_decode_ldDTVx : decode 0xFA15 = .instr (.ldDTVx 0xA) := by decide
theorem test_decode_ldSTVx : decode 0xFA18 = .instr (.ldSTVx 0xA) := by decide
theorem test_decode_addI : decode 0xFA1E = .instr (.addI 0xA) := by decide
theorem test_decode_ldF : decode 0xFA29 = .instr (.ldF 0xA) := by decide
theorem test_decode_ldB : decode 0xFA33 = .instr (.ldB 0xA) := by decide
theorem test_decode_storeRegs : decode 0xFA55 = .instr (.storeRegs 0xA) := by decide
theorem test_decode_loadRegs : decode 0xFA65 = .instr (.loadRegs 0xA) := by decide
theorem test_decode_table_word : decodeTableWord 16 0x1204 = some (.jp 0x204) ∧ decodeTableWord 16 0x8128 = none := by
  decide

/-! ### Fetch and PC -/

/-- T1 and T2: PC is not masked; the low byte of the word at 0x0FFF is cell 0x000. -/
theorem test_fetch_top : (after (State.reset.setPC 0x0FFE) 0x6A01).pc = 0x1000 ∧
    (after (State.reset.setPC 0x0FFF) 0x6A01).getV 0xA = 0x01 ∧
    (after (State.reset.setPC 0x0FFF) 0x6A01).pc = 0x1001 := by decide
/-- T3 and T4: PC wraps modulo 65536. -/
theorem test_pc_wraps : (after (State.reset.setPC 0xFFFE) 0x6000).pc = 0x0000 ∧
    (after (State.reset.setPC 0xFFFC) 0x3000).pc = 0x0000 := by decide
/-- The host's placement: the very next step from reset runs the word. -/
theorem test_step_runs_placed_word : ∃ t, step (State.reset.withFetchWord 16 0x1204) = .next t ∧ t.pc = 0x0204 :=
  ⟨_, rfl, by decide⟩
/-- 70_reset_and_hazards.md R234: the first event after reset is FRAME_START, which leaves PC. -/
theorem test_first_event : State.reset.nextEvent = .frameStart (Config.keysIn 0) := rfl

/-! ### Control transfer -/

/-- T10 and T12. -/
theorem test_ret : (after State.reset 0x00EE).pc = 0x0000 ∧ (after State.reset 0x00EE).sp = 0 ∧
    (after ((State.reset.push 0x0202).push 0x1234) 0x05EE).pc = 0x1234 ∧
    (after ((State.reset.push 0x0202).push 0x1234) 0x05EE).sp = 1 := by decide
/-- T15. -/
theorem test_jp : (after State.reset 0x1301).pc = 0x0301 := by decide
/-- T18: all 16 bits of the post-fetch PC are pushed. -/
theorem test_call : (after (State.reset.setPC 0x0FFE) 0x2300).pc = 0x0300 ∧
    (after (State.reset.setPC 0x0FFE) 0x2300).sp = 1 ∧
    (after (State.reset.setPC 0x0FFE) 0x2300).stack[0] = 0x1000 := by decide
/-- T17: a push on a full stack is dropped. -/
theorem test_call_full : (after { State.reset with sp := 16 } 0x2300).pc = 0x0300 ∧
    (after { State.reset with sp := 16 } 0x2300).sp = 16 ∧
    (after { State.reset with sp := 16 } 0x2300).stack = State.reset.stack ∧
    (after { State.reset with sp := 16 } 0x2300).report = none := by decide
/-- T20. -/
theorem test_jpV0 : (after (withV 0 0xFF) 0xBFFF).pc = 0x10FE := by decide
/-- T22 and T23, at PC = 0x0200. -/
theorem test_seImm : (after (withV 1 0x00) 0x3100).pc = 0x0204 ∧ (after (withV 1 0x01) 0x3100).pc = 0x0202 := by decide
/-- T24 and T25. -/
theorem test_sneImm : (after (withV 0xA 0x05) 0x4A05).pc = 0x0202 ∧ (after (withV 0xA 0x06) 0x4A05).pc = 0x0204 := by
  decide
/-- T27 and T28. -/
theorem test_seReg : (after (withV2 1 0x07 2 0x07) 0x5127).pc = 0x0204 ∧
    (after (withV2 1 0x07 2 0x08) 0x5120).pc = 0x0202 := by decide
/-- T32 and T31. -/
theorem test_sneReg : (after (withV2 1 0x07 2 0x08) 0x9125).pc = 0x0204 ∧
    (after (withV2 1 0x07 2 0x07) 0x9120).pc = 0x0202 := by decide

/-! ### Load and ALU -/

/-- T41. -/
theorem test_ldImm : (after State.reset 0x6FAB).getV vf = 0xAB := by decide
/-- T43 and T44. -/
theorem test_addImm : (after (withV2 1 0xFF vf 0x01) 0x7101).getV 1 = 0x00 ∧
    (after (withV2 1 0xFF vf 0x01) 0x7101).getV vf = 0x01 ∧ (after (withV vf 0xFF) 0x7F01).getV vf = 0x00 := by decide
/-- T45. -/
theorem test_ldReg : (after (withV 2 0x7E) 0x8120).getV 1 = 0x7E ∧ (after (withV 2 0x7E) 0x8120).getV 2 = 0x7E := by
  decide
/-- T46. -/
theorem test_orReg : (after ((withV2 1 0x0F 2 0xF0).setV vf 0x55) 0x8121).getV 1 = 0xFF ∧
    (after ((withV2 1 0x0F 2 0xF0).setV vf 0x55) 0x8121).getV vf = 0x55 := by decide
/-- T47. -/
theorem test_andReg : (after ((withV2 1 0x3C 2 0x0F).setV vf 0x55) 0x8122).getV 1 = 0x0C ∧
    (after ((withV2 1 0x3C 2 0x0F).setV vf 0x55) 0x8122).getV vf = 0x55 := by decide
/-- T48. -/
theorem test_xorReg : (after ((withV2 1 0xFF 2 0x0F).setV vf 0x55) 0x8123).getV 1 = 0xF0 ∧
    (after ((withV2 1 0xFF 2 0x0F).setV vf 0x55) 0x8123).getV vf = 0x55 := by decide
/-- S2 and T51. -/
theorem test_addReg : (after (withV2 1 0xFF 2 0x01) 0x8124).getV 1 = 0x00 ∧
    (after (withV2 1 0xFF 2 0x01) 0x8124).getV vf = 0x01 ∧
    (after ((withV2 1 0xFE 2 0x01).setV vf 0x01) 0x8124).getV vf = 0x00 := by decide
/-- T53 and T55: the flag wins; the old VF is the addend. -/
theorem test_addReg_vf : (after (withV2 vf 0xF0 1 0x20) 0x8F14).getV vf = 0x01 ∧
    (after (withV2 1 0xFF vf 0x01) 0x81F4).getV 1 = 0x00 ∧
    (after (withV2 1 0xFF vf 0x01) 0x81F4).getV vf = 0x01 := by decide
/-- S3 and T58. -/
theorem test_subReg : (after ((withV2 1 0x05 2 0x0A).setV vf 0x01) 0x8125).getV 1 = 0xFB ∧
    (after ((withV2 1 0x05 2 0x0A).setV vf 0x01) 0x8125).getV vf = 0x00 ∧
    (after (withV2 1 0x07 2 0x07) 0x8125).getV vf = 0x01 := by decide
/-- T60 and T61. -/
theorem test_subReg_vf : (after (withV2 vf 0x03 1 0x05) 0x8F15).getV vf = 0x00 ∧
    (after (withV2 vf 0x09 1 0x05) 0x8F15).getV vf = 0x01 := by decide
/-- T63. -/
theorem test_shr : (after ((withV2 1 0x80 2 0xFF).setV vf 0x01) 0x8126).getV 1 = 0x40 ∧
    (after ((withV2 1 0x80 2 0xFF).setV vf 0x01) 0x8126).getV 2 = 0xFF ∧
    (after ((withV2 1 0x80 2 0xFF).setV vf 0x01) 0x8126).getV vf = 0x00 := by decide
/-- T64 and T65. -/
theorem test_shr_vf : (after (withV vf 0x03) 0x8F06).getV vf = 0x01 ∧ (after (withV vf 0x02) 0x8F06).getV vf = 0x00 := by
  decide
/-- T67 and T68. -/
theorem test_subn : (after ((withV2 1 0x0A 2 0x05).setV vf 0x01) 0x8127).getV 1 = 0xFB ∧
    (after ((withV2 1 0x0A 2 0x05).setV vf 0x01) 0x8127).getV vf = 0x00 ∧
    (after (withV2 1 0x09 2 0x09) 0x8127).getV vf = 0x01 := by decide
/-- T69 and T70. -/
theorem test_shl : (after (withV 1 0x81) 0x810E).getV 1 = 0x02 ∧ (after (withV 1 0x81) 0x810E).getV vf = 0x01 ∧
    (after (withV2 1 0x41 vf 0x01) 0x810E).getV vf = 0x00 := by decide
/-- T71 and T72. -/
theorem test_shl_vf : (after (withV vf 0x80) 0x8F0E).getV vf = 0x01 ∧ (after (withV vf 0x7F) 0x8F0E).getV vf = 0x00 := by
  decide

/-! ### Random: draw number d is r = d + 1 -/

/-- T80 (r = 37) and T83 (r = 255). -/
theorem test_rnd : (after State.reset 0xC10A 36).getV 1 = 0x07 ∧ (after (withV 1 0x09) 0xC1FF 254).getV 1 = 0x00 := by
  decide
/-- T87 (r = 15) and T88 (r = 0x77). -/
theorem test_rnd_vf_and_zero : (after (withV vf 0x01) 0xCF07 14).getV vf = 0x01 ∧
    (after (withV 1 0x09) 0xC100 118).getV 1 = 0x00 ∧ (after (withV 1 0x09) 0xC100 118).report = none := by decide

/-! ### Display: row y as a 64-bit word, column x is bit x -/

/-- T91: cells 0, 5, 2047 lit, opcode 03E0; VF kept (T90). -/
theorem test_cls : (after (withRow 0 0x21 (withRow 31 0x8000000000000000 (withV vf 0x01))) 0x03E0).fb = State.reset.fb ∧
    (after (withRow 0 0x21 (withRow 31 0x8000000000000000 (withV vf 0x01))) 0x03E0).getV vf = 0x01 := by decide
/-- T92: F0 over cells 3 and 4. -/
theorem test_drw_collision : (after (withRow 0 0x18 ((State.reset.setI 0x300).writeByte 0x300 0xF0)) 0xD011).fb =
      (withRow 0 0x17 State.reset).fb ∧
    (after (withRow 0 0x18 ((State.reset.setI 0x300).writeByte 0x300 0xF0)) 0xD011).getV vf = 0x01 := by decide
/-- T99: the bottom right corner, everything else clipped. -/
theorem test_drw_clips : (after ((((withV2 0 0x3F 1 0x1F).setI 0x300).writeByte 0x300 0xFF).writeByte 0x301 0xFF)
      0xD012).fb = (withRow 31 0x8000000000000000 State.reset).fb := by decide
/-- T103: the sprite wraps from cell 0xFFF to cell 0x000. -/
theorem test_drw_address_wraps : (after (((State.reset.setI 0xFFF).writeByte 0xFFF 0x80).writeByte 0x000 0x40)
      0xD012).fb = (withRow 0 0x1 (withRow 1 0x2 State.reset)).fb := by decide
/-- T101: x from the old VF. -/
theorem test_drw_vf_origin : (after (((withV2 vf 0x03 0 0x02).setI 0x300).writeByte 0x300 0x80) 0xDF01).fb =
    (withRow 2 0x8 State.reset).fb := by decide

/-! ### Keypad -/

/-- T112 and T111. -/
theorem test_skp : (after (withKeys 0x0400 (withV 3 0x1A)) 0xE39E).pc = 0x0204 ∧
    (after (withV 3 0x05) 0xE39E).pc = 0x0202 := by decide
/-- T113 and T114. -/
theorem test_sknp : (after (withV 3 0x05) 0xE3A1).pc = 0x0204 ∧
    (after (withKeys 0x0020 (withV 3 0x05)) 0xE3A1).pc = 0x0202 := by decide
/-- T117 and T118. -/
theorem test_ldVxK : (after (withKeys 0x0080 (withV 2 0x07)) 0xF20A).pc = 0x0202 ∧
    (after (withKeys 0x0080 (withV 2 0x07)) 0xF20A).getV 2 = 0x07 ∧
    (after (withKeys 0x000E (withV 2 0x07)) 0xF20A).pc = 0x0200 := by decide
/-- T120. -/
theorem test_ldVxK_wraps : (after ((withV 2 0x07).setPC 0xFFFF) 0xF20A).pc = 0xFFFF := by decide

/-! ### Address register, timers, memory -/

/-- T131. -/
theorem test_ldI : (after State.reset 0xAFFF).i = 0x0FFF := by decide
/-- T132. -/
theorem test_ldVxDT : (after (State.reset.setDT 0x03) 0xF107).getV 1 = 0x03 ∧
    (after (State.reset.setDT 0x03) 0xF107).dt = 0x03 := by decide
/-- T133. -/
theorem test_ldDTVx : (after (withV 0 0x03) 0xF015).dt = 0x03 := by decide
/-- T134. -/
theorem test_ldSTVx : (after (withV 2 0x02) 0xF218).st = 0x02 ∧ (after (withV 2 0x02) 0xF218).tone = false := by decide
/-- T136 and T137. -/
theorem test_addI : (after ((withV 2 0x01).setI 0x0FFF) 0xF21E).i = 0x0000 ∧
    (after ((withV 2 0x01).setI 0x0FFF) 0xF21E).getV vf = 0x01 ∧
    (after ((withV2 2 0xFF vf 0x01).setI 0x0F00) 0xF21E).i = 0x0FFF ∧
    (after ((withV2 2 0xFF vf 0x01).setI 0x0F00) 0xF21E).getV vf = 0x00 := by decide
/-- T139: the old VF is added. -/
theorem test_addI_vf : (after ((withV vf 0x01).setI 0x0100) 0xFF1E).i = 0x0101 ∧
    (after ((withV vf 0x01).setI 0x0100) 0xFF1E).getV vf = 0x00 := by decide
/-- T141 and T143. -/
theorem test_ldF : (after (withV 0 0x0F) 0xF029).i = 0x009B ∧ (after (withV 0 0xFF) 0xF029).i = 0x054B := by decide
/-- T144 and T146. -/
theorem test_ldB : (after ((withV 0 0xEA).setI 0x0300) 0xF033).mem =
      [(0x200, 0xF0), (0x201, 0x33), (0x300, 2), (0x301, 3), (0x302, 4)] ∧
    (after ((withV 0 0xFF).setI 0x0FFE) 0xF033).readByte 0xFFF = 0x05 ∧
    (after ((withV 0 0xFF).setI 0x0FFE) 0xF033).readByte 0x000 = 0x05 := by decide
/-- T148 and T149. -/
theorem test_storeRegs : (after ((withV2 0 0xAA 1 0xBB).setI 0x0300) 0xF055).mem =
      [(0x200, 0xF0), (0x201, 0x55), (0x300, 0xAA)] ∧
    (after ((withV2 0 0x11 1 0x22).setI 0x0FFF) 0xF155).readByte 0xFFF = 0x11 ∧
    (after ((withV2 0 0x11 1 0x22).setI 0x0FFF) 0xF155).readByte 0x000 = 0x22 := by decide
/-- T151: the next fetch reads the cells just written. -/
theorem test_storeRegs_fetched : (after ((withV2 0 0x12 1 0x00).setI 0x0202) 0xF155).fetch 0x0202 = 0x1200 := by decide
/-- T153. -/
theorem test_loadRegs : (after (State.reset.setI 0x0050) 0xFF65).v.toList =
    [0xF0, 0x90, 0x90, 0x90, 0xF0, 0x20, 0x60, 0x20, 0x20, 0x70, 0xF0, 0x10, 0xF0, 0x80, 0xF0, 0xF0] := by decide
/-- T152: V3 is untouched. -/
theorem test_loadRegs_above : (after (((withV 3 0x99).setI 0x0300).writeByte 0x303 0x05) 0xF265).getV 3 = 0x99 := by
  decide

/-! ### Unrecognised words -/

/-- T73, T115, T161, T164. -/
theorem test_unrecognised : (after State.reset 0x8128).report = some ⟨0x8128, 0x0200⟩ ∧
    (after State.reset 0xE300).report = some ⟨0xE300, 0x0200⟩ ∧
    (after State.reset 0x0123).report = some ⟨0x0123, 0x0200⟩ ∧
    (after State.reset 0xF175).report = some ⟨0xF175, 0x0200⟩ ∧ (after State.reset 0xF175).pc = 0x0202 := by decide

/-! ### Frame events -/

/-- T170. -/
theorem test_frameStart : (State.frameStart (withKeys 0x0208 State.reset) 0x00A0).key = 0x00A0 := by decide
/-- T171 to T173. -/
theorem test_frameEnd_tone : (State.reset.setST 2).frameEnd.tone = true ∧ (State.reset.setST 2).frameEnd.st = 1 ∧
    (State.reset.setST 1).frameEnd.tone = true ∧ (State.reset.setST 1).frameEnd.st = 0 ∧
    ({ State.reset with tone := true }).frameEnd.tone = false := by decide
/-- T174 and S8. -/
theorem test_frameEnd_dt : (State.reset.setDT 0xFF).frameEnd.dt = 0xFE ∧ (State.reset.setDT 1).frameEnd.dt = 0 ∧
    (State.reset.setDT 0).frameEnd.dt = 0 := by decide

/-! ### Witnesses: a concrete input that meets the hypotheses of each statement, one per clause and at its bounds -/

theorem witness_InstructionIsTwoBytesHighFirst : encodeBytes (.jp 0x204) = [0x12, 0x04] := by decide
theorem witness_DecodedWordIsItsEncoding : decode 0x5127 = .instr (.seReg 1 2) ∧ decode 0xFF65 = .instr (.loadRegs 15) := by
  decide
theorem witness_UnrecognisedWordIsReportedNoOp : wellFormedWord (State.reset.fetch State.reset.pc) = false ∧
    wellFormedWord ((State.reset.withFetchWord 16 0x1204).fetch 0x0200) = true := by decide
theorem witness_ReportCarriesOpcodeAndAddress : (∃ t, tick 0 State.reset = .next t) ∧
    ∃ t, tick 0 (State.reset.withFetchWord 16 0x1204) = .next t := ⟨⟨_, rfl⟩, ⟨_, rfl⟩⟩
theorem witness_UnrecognisedWordCounts : (0x5 : Nibble) ≠ 0x0 ∧ (0x5 : Nibble) ≠ 0x8 ∧ (0x5 : Nibble) ≠ 0xE ∧
    (0x5 : Nibble) ≠ 0xF := by decide
theorem witness_StepRunsTheDecodedInstruction :
    (State.reset.withFetchWord 16 0x1204).phase = .ticks 1 ∧
    decode ((State.reset.withFetchWord 16 0x1204).fetch 0x0200) = .instr (.jp 0x204) ∧
    (State.reset.withFetchWord 16 0x8128).phase = .ticks 1 ∧
    decode ((State.reset.withFetchWord 16 0x8128).fetch 0x0200) = .unrecognised (.group8 8) := by decide
theorem witness_WholeFrameFollowsTheContract : State.reset.phase = .frameStart := by decide
theorem witness_FrameEndSamplesThenCounts : 0 < (State.reset.setDT 1).dt.toNat ∧ State.reset.dt = 0 ∧
    0 < (State.reset.setST 255).st.toNat ∧ State.reset.st = 0 := by decide
theorem witness_TimersCountDownOncePerFrame : 0 < 1 := by decide
theorem witness_ResetPlacesTheProgram : ([] : List Byte).length ≤ 3584 ∧ ([0x12, 0x00] : List Byte).length ≤ 3584 ∧
    1 < ([0x12, 0x00] : List Byte).length ∧ (List.replicate 3584 (0xFF : Byte)).length ≤ 3584 ∧
    3584 < (List.replicate 3585 (0xFF : Byte)).length ∧ (79 : Nat) < 80 ∧
    (0x04F < 4096 ∧ ¬ (0x050 ≤ 0x04F ∧ 0x04F < 0x0A0) ∧ ¬ (0x200 ≤ 0x04F ∧ 0x04F < 0x202)) ∧
    (0x202 < 4096 ∧ ¬ (0x050 ≤ 0x202 ∧ 0x202 < 0x0A0) ∧ ¬ (0x200 ≤ 0x202 ∧ 0x202 < 0x202)) := by
  rw [List.length_replicate, List.length_replicate]; decide
theorem witness_ResetClearsTheRest : (List.replicate 3584 (0xFF : Byte)).length ≤ 3584 ∧ (2047 : Nat) < 2048 := by
  rw [List.length_replicate]; decide
theorem witness_StepKeepsInvariant : State.reset.Inv ∧ ∃ t, step State.reset = .next t :=
  ⟨⟨by decide, by decide⟩, _, rfl⟩
theorem witness_EventSequencesKeepInvariant : State.reset.Inv ∧
    ∃ t, runEvents [.reset [0x12, 0x00], .frameStart 0x00A0, .tick 0, .frameEnd] State.reset = .next t :=
  ⟨⟨by decide, by decide⟩, _, rfl⟩
theorem witness_GeneralRegisterWriters : (2 : Reg) ∉ vWritten (.addReg 1 2) ∧ setsFlag (.addReg 1 2) = true ∧
    (2 : Reg) ≠ vf ∧ (2 : Reg) ∉ vWritten (.loadRegs 1) ∧ setsFlag (.loadRegs 1) = false ∧
    vf ∉ vWritten (.orReg 1 2) := by decide
theorem witness_SpecialRegisterWriters : writesI (.call 0x300) = false ∧ writesDT (.ldSTVx 1) = false ∧
    writesST (.ldDTVx 1) = false ∧ movesStack (.jp 0x300) = false := by decide
theorem witness_MemoryAndScreenWriters : writesMem (.loadRegs 1) = false ∧ writesFB (.ldB 1) = false := by decide
theorem witness_PcMoversAreControlTransfers : movesPC (.ldB 1) = false ∧ isSkip (.skp 1) = true ∧
    (Instr.ldVxK 1) = .ldVxK 1 := by decide
theorem witness_DrawMattersOnlyToRnd : decode ((State.reset.withFetchWord 16 0x1204).fetch 0x0200) = .instr (.jp 0x204) ∧
    ∀ x kk, Decoded.instr (.jp 0x204) ≠ .instr (.rnd x kk) := ⟨by decide, by simp⟩
theorem witness_KeysReadOnlyByKeypadInstructions : readsKeys (.ldVxDT 1) = false := by decide
theorem witness_RetPopsIntoPc : State.reset.sp.val = 0 ∧ (State.reset.push 0x0202).sp.val = 0 + 1 ∧
    ({ State.reset with sp := 16 }).sp.val = 15 + 1 := by decide
theorem witness_CallPushesAndJumps : State.reset.sp.val = 0 ∧ ({ State.reset with sp := 15 }).sp.val = 15 ∧
    ({ State.reset with sp := 16 }).sp.val = 16 := by decide
theorem witness_CallThenRetReturns : State.reset.sp.val < 16 ∧ ({ State.reset with sp := 15 }).sp.val < 16 ∧
    ({ State.reset with sp := 16 }).sp.val = 16 := by decide
theorem witness_AddRegisterSetsCarry : (14 : Reg) ≠ vf := by decide
theorem witness_SubtractionsSetNotBorrow : (14 : Reg) ≠ vf := by decide
theorem witness_ShiftsSetTheBitShiftedOut : (14 : Reg) ≠ vf := by decide
theorem witness_AluResultAndFlagAreExact : (14 : Reg) ≠ vf := by decide
theorem witness_RndWritesTheRemainder : (1 : Byte) ≠ 0 ∧ (0xFF : Byte) ≠ 0 := by decide
theorem witness_ClsClearsTheFramebuffer : (2047 : Nat) < 2048 := by decide
/-- The glyph 0 drawn at the top left corner: on a lit screen it collides, on the reset screen it does not. -/
theorem witness_DrwInvertsTheSpriteCells :
    (63 < 64 ∧ 31 < 32 ∧ drwBit ((withV2 0 0x3F 1 0x1F).setI 0x050) 0 1 5 63 31 = true ∧
      FrameBuffer.cell (withRow 31 0x8000000000000000 ((withV2 0 0x3F 1 0x1F).setI 0x050)).fb 63 31 = true) ∧
    (∀ px py : Nat, px < 64 → py < 32 → drwBit (State.reset.setI 0x050) 0 1 5 px py = true →
      FrameBuffer.cell (State.reset.setI 0x050).fb px py = false) := by
  refine ⟨by decide, fun px py _ hy _ => ?_⟩
  simp [FrameBuffer.cell, State.setI, State.reset, hy]
theorem witness_DrwTwiceRestoresTheFramebuffer : (0 : Reg) ≠ vf ∧ (1 : Reg) ≠ vf ∧
    drwBit (State.reset.setI 0x050) 0 1 5 0 0 = true ∧ FrameBuffer.cell (State.reset.setI 0x050).fb 0 0 = false := by
  decide
theorem witness_KeyWaitSpinsWhileTheKeyIsUp :
    decode (((withV 2 0x07).withFetchWord 16 0xF20A).fetch 0x0200) = .instr (.ldVxK 2) ∧
    (withV 2 0x07).key.getLsbD (((withV 2 0x07).getV 2).toNat % 16) = false := by decide
theorem witness_LdBStoresTheDigits : (State.reset.setI 0x0FFE).mem.wf = true ∧
    ∀ k : Nat, k < 3 → maskAddr 0x001 ≠ maskAddr ((State.reset.setI 0x0FFE).effAddr k) := by decide
theorem witness_StoreRegsStoresTheBlock : (State.reset.setI 0x0FFF).mem.wf = true ∧ (1 : Reg).toNat ≤ (1 : Reg).toNat ∧
    ∀ k : Nat, k ≤ (1 : Reg).toNat → maskAddr 0x001 ≠ maskAddr ((State.reset.setI 0x0FFF).effAddr k) := by
  refine ⟨by decide, by decide, fun k hk => ?_⟩
  rcases Nat.le_one_iff_eq_zero_or_eq_one.1 hk with h | h <;> subst h <;> decide
theorem witness_LoadRegsLoadsTheBlock : (14 : Reg).toNat ≤ (14 : Reg).toNat ∧ (14 : Reg).toNat < (15 : Reg).toNat := by
  decide
theorem witness_StoreThenLoadRestores : State.reset.mem.wf = true ∧ (15 : Reg).toNat ≤ (15 : Reg).toNat := by decide
/-- The only byte of x = 0, in both halves of a fetch; the last of sixteen; the last digit, wrapped to cell 0x000. -/
theorem witness_StoredBytesAreFetchedNext : (State.reset.setI 0x0FFE).mem.wf = true ∧
    (0 : Reg).toNat ≤ (0 : Reg).toNat ∧ (15 : Reg).toNat ≤ (15 : Reg).toNat ∧
    maskAddr (0x0FFE : Word).toNat = maskAddr ((State.reset.setI 0x0FFE).effAddr 0) ∧
    maskAddr ((0x0FFD : Word).toNat + 1) = maskAddr ((State.reset.setI 0x0FFE).effAddr 0) ∧
    maskAddr (0x000D : Word).toNat = maskAddr ((State.reset.setI 0x0FFE).effAddr 15) ∧ 2 < 3 ∧
    maskAddr (0x0000 : Word).toNat = maskAddr ((State.reset.setI 0x0FFE).effAddr 2) ∧
    maskAddr ((0x0FFF : Word).toNat + 1) = maskAddr ((State.reset.setI 0x0FFE).effAddr 2) := by decide
theorem witness_StepAtAFrameBoundary : State.reset.phase = .frameStart ∧
    ({ State.reset with phase := .ticks 0 }).phase = .ticks 0 := by decide
theorem witness_JumpToSelfFreezesTheProgram : (State.reset.withFetchWord 16 0x1200).ended ∧
    ∀ rom, Event.reset rom ∉ [Event.tick 0, Event.frameEnd] := ⟨⟨by decide, by decide⟩, by simp⟩

end Sys2Proof.Tests
end

section
/-! The value of a fetched word (20_memory.md R52). -/

namespace Sys2Proof

/-- Big-endian: the first byte of a word is its bits 15:8. -/
theorem toNat_wordOfBytes (hi lo : Byte) : (wordOfBytes hi lo).toNat = hi.toNat * 256 + lo.toNat :=
  toNat_cat hi lo

namespace Machine

/-- Settles O9: the word's value is its two bytes', and `readByte` masks the address of each by itself. -/
theorem fetchIsBigEndianAndMasked : Obligations.FetchIsBigEndianAndMasked := by
  intro s a
  calc (s.fetch a).toNat
      = (s.readByte a.toNat).toNat * 256 + (s.readByte (a.toNat + 1)).toNat := toNat_wordOfBytes _ _
    _ = (s.mem.read (a.toNat % 4096)).toNat * 256 + (s.mem.read ((a.toNat + 1) % 4096)).toNat := rfl

end Machine
end Sys2Proof
end

section
/-! Decoding what the encoder wrote, as a word and as two bytes (30_encoding.md R71, R75). -/

namespace Sys2Proof

/-- Group 8 reads all three of its other digits. -/
theorem decode_group8 (x y : Reg) (n : Nibble) : decode (0x8#4 ++ x ++ y ++ n) = decodeGroup8 x y n := by
  rw [decode, opField_shapeR, xField_shapeR, yField_shapeR, nField_shapeR]
  rfl

/-- Group E selects on the low byte and keeps the register digit. -/
theorem decode_groupE (x : Reg) (kk : Byte) : decode (0xE#4 ++ x ++ kk) = decodeGroupE x kk := by
  rw [decode, opField_shapeK, xField_shapeK, kkField_shapeK]
  rfl

/-- Group F selects on the low byte and keeps the register digit. -/
theorem decode_groupF (x : Reg) (kk : Byte) : decode (0xF#4 ++ x ++ kk) = decodeGroupF x kk := by
  rw [decode, opField_shapeK, xField_shapeK, kkField_shapeK]
  rfl

/-- The decoder inverts the encoder on every instruction: a group's words go through its sub-decoder, any other word is
read field by field in its shape. -/
@[simp] theorem decode_encode (i : Instr) : decode (encode i) = .instr i := by
  cases i with
  | cls | ret => rfl
  | jp nnn | call nnn | ldI nnn | jpV0 nnn => simp [encode, decode]
  | seImm x kk | sneImm x kk | ldImm x kk | addImm x kk | rnd x kk => simp [encode, decode]
  | seReg x y | sneReg x y | drw x y n => simp [encode, decode]
  | ldReg x y | orReg x y | andReg x y | xorReg x y | addReg x y | subReg x y | subn x y => exact decode_group8 x y _
  | shr x | shl x => exact decode_group8 x 0 _
  | skp x | sknp x => exact decode_groupE x _
  | ldVxDT x | ldVxK x | ldDTVx x | ldSTVx x | addI x | ldF x | ldB x | storeRegs x | loadRegs x =>
    exact decode_groupF x _

/-- An instruction laid out as bytes is read back from the head of a sequence, and just its two bytes are taken. -/
theorem decodeBytes_encodeBytes_append (i : Instr) (rest : List Byte) :
    decodeBytes (encodeBytes i ++ rest) = (.instr i, rest) := by
  change (decode (wordOfBytes (hiByte (encode i)) (loByte (encode i))), rest) = _
  rw [wordOfBytes_hi_lo, decode_encode]

/-- The two bytes of an instruction are its word's, high byte first. -/
theorem wordOfBytes_of_encodeBytes_eq {i : Instr} {hi lo : Byte} (h : encodeBytes i = [hi, lo]) :
    wordOfBytes hi lo = encode i := by
  obtain ⟨rfl, rfl⟩ : hiByte (encode i) = hi ∧ loByte (encode i) = lo := by simpa [encodeBytes] using h
  exact wordOfBytes_hi_lo _

namespace Machine

/-- Settles O2: the two bytes make up the instruction's word again, and the decoder inverts the encoder. -/
theorem instructionIsTwoBytesHighFirst : Obligations.InstructionIsTwoBytesHighFirst := by
  intro i rest
  refine ⟨rfl, fun hi lo h => ?_, decodeBytes_encodeBytes_append i rest⟩
  rw [← wordOfBytes_of_encodeBytes_eq h, toNat_wordOfBytes]

end Machine
end Sys2Proof
end

section
/-! Jumps, calls and immediate skips (40_control_flow.md R100, R102, R103, R105, R106): what a write of PC, a skip and a
push do, then the instructions made of them. -/

namespace Sys2Proof.Machine

/-! ### What the instructions are made of -/

/-- A write of PC touches nothing else. -/
theorem sameButPC_setPC (s : State) (w : Word) : SameButPC s (s.setPC w) :=
  ⟨fun _ => rfl, fun _ => rfl, fun _ _ _ _ => rfl, ⟨rfl, rfl⟩, rfl, ⟨rfl, rfl⟩, rfl, rfl, rfl, rfl, rfl, rfl, rfl⟩

/-- A skip writes nothing but PC. -/
theorem sameButPC_skipIf (s : State) (c : Bool) : SameButPC s (s.skipIf c) := sameButPC_setPC s _

/-- Skip if equal: the two-byte move of PC is made in exactly that case. -/
theorem State.skipIf_beq_pc (s : State) (a b : Byte) :
    (s.skipIf (a == b)).pc = if a = b then s.pc + 2 else s.pc := by
  rw [State.skipIf_pc]
  simp only [beq_iff_eq]

/-- Skip if not equal: PC is left as given when the operands are equal. -/
theorem State.skipIf_bne_pc (s : State) (a b : Byte) :
    (s.skipIf (a != b)).pc = if a = b then s.pc else s.pc + 2 := by
  rw [State.skipIf_pc]
  simp only [bne_iff_ne, ne_eq, ite_not]

/-- What a control transfer that also moves the stack leaves unchanged: all but STACK, SP and PC. -/
theorem frame_of_stack_and_pc {s t : State} {cells : Vector Word 16} {depth : Fin 17} {target : Word}
    (h : t = { s with stack := cells, sp := depth, pc := target }) :
    SameV s t ∧ SameMem s t ∧ SameFB s t ∧ SameI s t ∧ SameTimers s t ∧ SameEnv s t := by
  subst h
  exact ⟨fun _ => rfl, fun _ => rfl, fun _ _ _ _ => rfl, rfl, ⟨rfl, rfl⟩, rfl, rfl, rfl, rfl, rfl, rfl, rfl⟩

/-- A push at SP = k below 16: SP one higher, the word in STACK[k], every other cell left in place (10_state.md R35). -/
theorem State.push_stores {s : State} {k : Nat} (hk : k < 16) (h : s.sp.val = k) (w : Word) :
    (s.push w).sp.val = k + 1 ∧ (s.push w).stack[k] = w ∧
      ∀ (j : Nat) (hj : j < 16), j ≠ k → (s.push w).stack[j] = s.stack[j] := by
  subst h
  rw [State.push_of_lt hk]
  exact ⟨rfl, Vector.getElem_set_self hk, fun j hj hne => Vector.getElem_set_ne hk hj hne.symm⟩

/-- A push at SP = 16 leaves the stack as it was. -/
theorem State.sameStack_push_of_full {s : State} (h : s.sp.val = 16) (w : Word) : SameStack s (s.push w) := by
  rw [State.push_of_full h]
  exact ⟨rfl, rfl⟩

/-! ### The instructions -/

theorem exec_jp (nnn : Addr) (s : State) : exec (.jp nnn) s = .next (s.setPC (zextAddr nnn)) := rfl

theorem exec_call (nnn : Addr) (s : State) : exec (.call nnn) s = .next ((s.push s.pc).setPC (zextAddr nnn)) := rfl

theorem exec_seImm (x : Reg) (kk : Byte) (s : State) :
    exec (.seImm x kk) s = .next (s.skipIf (s.getV x == kk)) := rfl

theorem exec_sneImm (x : Reg) (kk : Byte) (s : State) :
    exec (.sneImm x kk) s = .next (s.skipIf (s.getV x != kk)) := rfl

/-- Settles O30: the word is the encoding of JP nnn, and the jump is one write of PC. -/
theorem jpSetsPc : Obligations.JpSetsPc := fun nnn =>
  ⟨decode_encode (.jp nnn), fun s => ⟨_, exec_jp nnn s, toNat_zextAddr nnn, sameButPC_setPC s _⟩⟩

/-- Settles O31: the push decides what becomes of the stack, by SP below 16 or at 16; the write of PC after it touches
no cell and happens either way. -/
theorem callPushesAndJumps : Obligations.CallPushesAndJumps := by
  refine fun nnn => ⟨decode_encode (.call nnn), fun s => ⟨_, exec_call nnn s, toNat_zextAddr nnn, ?_, ?_, ?_⟩⟩
  · exact fun k hk hsp => State.push_stores hk hsp s.pc
  · exact fun hfull => State.sameStack_push_of_full hfull s.pc
  · exact frame_of_stack_and_pc (cells := s.pushCells s.pc) (depth := s.pushDepth) (target := zextAddr nnn) rfl

/-- Settles O34: both words are encodings, and each instruction is one skip on its own condition. -/
theorem immediateSkips : Obligations.ImmediateSkips := by
  refine fun x kk => ⟨decode_encode (.seImm x kk), decode_encode (.sneImm x kk), fun s => ⟨?_, ?_⟩⟩
  · exact ⟨_, exec_seImm x kk s, State.skipIf_beq_pc s (s.getV x) kk, sameButPC_skipIf s _⟩
  · exact ⟨_, exec_sneImm x kk s, State.skipIf_bne_pc s (s.getV x) kk, sameButPC_skipIf s _⟩

end Sys2Proof.Machine
end

section
/-! Loads and ADD of an immediate (41_alu.md R121, R122, R123): one write of V[x] each, no flag. -/

namespace Sys2Proof.Machine

/-- A write of V[x] touches nothing else: VF too is left as it was, unless it is V[x] itself. -/
theorem sameBut_setV (s : State) (x : Reg) (val : Byte) : SameBut [x] s (s.setV x val) := by
  have hregs : SameVBut [x] s (s.setV x val) := fun _ hr => State.getV_setV_ne s (List.ne_of_not_mem_cons hr) val
  exact ⟨hregs, rfl, fun _ => rfl, fun _ _ _ _ => rfl, ⟨rfl, rfl⟩, rfl, ⟨rfl, rfl⟩, rfl, rfl, rfl, rfl, rfl, rfl, rfl⟩

theorem exec_ldImm (x : Reg) (kk : Byte) (s : State) : exec (.ldImm x kk) s = .next (s.setV x kk) := rfl

theorem exec_addImm (x : Reg) (kk : Byte) (s : State) :
    exec (.addImm x kk) s = .next (s.setV x (s.getV x + kk)) := rfl

theorem exec_ldReg (x y : Reg) (s : State) : exec (.ldReg x y) s = .next (s.setV x (s.getV y)) := rfl

/-- V[x] after a write of a sum: the sum of the two bytes modulo 256. -/
theorem State.toNat_getV_setV_add (s : State) (x : Reg) (a b : Byte) :
    ((s.setV x (a + b)).getV x).toNat = (a.toNat + b.toNat) % 256 := by
  rw [State.getV_setV_same]
  exact BitVec.toNat_add a b

/-- Settles O36: the words are encodings, and each instruction is one write of V[x]. -/
theorem loadsAndAddImmediate : Obligations.LoadsAndAddImmediate := by
  refine ⟨fun x kk => ⟨decode_encode (.ldImm x kk), decode_encode (.addImm x kk), fun s => ⟨?_, ?_⟩⟩,
    fun x y => ⟨decode_encode (.ldReg x y), fun s => ?_⟩⟩
  · exact ⟨_, exec_ldImm x kk s, State.getV_setV_same s x kk, sameBut_setV s x kk⟩
  · exact ⟨_, exec_addImm x kk s, State.toNat_getV_setV_add s x (s.getV x) kk, sameBut_setV s x _⟩
  · exact ⟨_, exec_ldReg x y s, State.getV_setV_same s x (s.getV y), sameBut_setV s x _⟩

end Sys2Proof.Machine
end

section
/-! RND (42_random.md R140): the value of the draw, the value written, then the instruction. -/

namespace Sys2Proof.Machine

/-- The draw, at most 255, is not cut by the byte that holds it. -/
theorem toNat_drawByte (r : Draw) : (drawByte r).toNat = r.val + 1 :=
  Nat.mod_eq_of_lt (Nat.succ_lt_succ r.isLt)

theorem toNat_rndValue (r : Draw) {kk : Byte} (h : kk ≠ 0) : (rndValue r kk).toNat = (r.val + 1) % kk.toNat := by
  rw [rndValue, if_neg h, BitVec.toNat_umod, toNat_drawByte]

/-- A remainder of the immediate is below it: kk itself is never written. -/
theorem toNat_rndValue_lt (r : Draw) {kk : Byte} (h : kk ≠ 0) : (rndValue r kk).toNat < kk.toNat := by
  have hpos : 0 < kk.toNat := Nat.pos_of_ne_zero fun hz => h (BitVec.eq_of_toNat_eq hz)
  rw [toNat_rndValue r h]
  exact Nat.mod_lt _ hpos

theorem exec_rnd (x : Reg) (kk : Byte) (s : State) :
    exec (.rnd x kk) s = .next (s.setV x (rndValue s.rndIn kk)) := rfl

/-- Settles O42: the word is the encoding of RND, and the instruction is one write of V[x], of a value that depends on
the draw and kk alone. -/
theorem rndWritesTheRemainder : Obligations.RndWritesTheRemainder := by
  refine fun x kk => ⟨decode_encode (.rnd x kk), fun hkk s => ⟨_, exec_rnd x kk s, ?_, ?_, sameBut_setV s x _⟩⟩
  · rw [State.getV_setV_same, toNat_rndValue s.rndIn hkk]
  · rw [State.getV_setV_same]
    exact toNat_rndValue_lt s.rndIn hkk

end Sys2Proof.Machine
end

section
/-! The key skips (44_keypad.md R160, R161, R162): each is one skip on the key that V[x] names. -/

namespace Sys2Proof.Machine

/-- R160: the key's number is the low 4 bits of the byte that names it. -/
theorem State.keyDown_eq (s : State) (val : Byte) : s.keyDown val = s.key.getLsbD (val.toNat % 16) := rfl

/-- A skip on a negated condition: PC is left as given when the condition holds. -/
theorem State.skipIf_not_pc (s : State) (c : Bool) : (s.skipIf (!c)).pc = if c then s.pc else s.pc + 2 := by
  rw [State.skipIf_pc]
  cases c <;> rfl

theorem exec_skp (x : Reg) (s : State) : exec (.skp x) s = .next (s.skipIf (s.keyDown (s.getV x))) := rfl

theorem exec_sknp (x : Reg) (s : State) : exec (.sknp x) s = .next (s.skipIf (!s.keyDown (s.getV x))) := rfl

/-- Settles O47: both words are encodings, and the two instructions skip on opposite conditions of one key. -/
theorem keySkips : Obligations.KeySkips := by
  refine fun x => ⟨decode_encode (.skp x), decode_encode (.sknp x), fun s => ?_⟩
  rw [← State.keyDown_eq]
  constructor
  · exact ⟨_, exec_skp x s, State.skipIf_pc s _, sameButPC_skipIf s _⟩
  · exact ⟨_, exec_sknp x s, State.skipIf_not_pc s _, sameButPC_skipIf s _⟩

end Sys2Proof.Machine
end

section
/-! LD I and the timer moves (45_timers_index_memory.md R170 to R173): what a write of I or of a timer leaves unchanged,
the tone over a run of FRAME_ENDs (60_exceptions.md R211 to R213), then the instructions. -/

namespace Sys2Proof.Machine

/-! ### What a write leaves unchanged -/

/-- A write of I touches nothing else. -/
theorem frame_setI (s : State) (w : Word) :
    SameV s (s.setI w) ∧ (s.setI w).pc = s.pc ∧ SameMem s (s.setI w) ∧ SameFB s (s.setI w) ∧ SameStack s (s.setI w) ∧
      SameTimers s (s.setI w) ∧ SameEnv s (s.setI w) :=
  ⟨fun _ => rfl, rfl, fun _ => rfl, fun _ _ _ _ => rfl, ⟨rfl, rfl⟩, ⟨rfl, rfl⟩, rfl, rfl, rfl, rfl, rfl, rfl, rfl⟩

/-- What a write of the timers leaves unchanged: all but DT and ST. -/
theorem frame_of_timers {s t : State} {delay sound : Byte} (h : t = { s with dt := delay, st := sound }) :
    SameV s t ∧ t.pc = s.pc ∧ SameMem s t ∧ SameFB s t ∧ SameStack s t ∧ SameI s t ∧ SameEnv s t := by
  subst h
  exact ⟨fun _ => rfl, rfl, fun _ => rfl, fun _ _ _ _ => rfl, ⟨rfl, rfl⟩, rfl, rfl, rfl, rfl, rfl, rfl, rfl, rfl⟩

/-! ### A run of FRAME_ENDs -/

/-- A run of k FRAME_ENDs is FRAME_END iterated k times. -/
theorem runEvents_frameEnds (k : Nat) (s : State) :
    runEvents (List.replicate k .frameEnd) s = .next (State.frameEnd^[k] s) := by
  induction k generalizing s with
  | zero => rfl
  | succ k ih => exact ih s.frameEnd

/-- Each FRAME_END takes 1 from ST until it is 0 (R213). -/
theorem toNat_st_frameEnds (k : Nat) (s : State) : (State.frameEnd^[k] s).st.toNat = s.st.toNat - k := by
  induction k with
  | zero => rfl
  | succ k ih => rw [Function.iterate_succ_apply', State.frameEnd_st, toNat_countdown, ih, Nat.sub_sub]

/-- FRAME_END samples ST before it counts (R211): the tone is on exactly when ST was positive. -/
theorem State.frameEnd_tone_iff (s : State) : s.frameEnd.tone = true ↔ 0 < s.st.toNat := by
  rw [State.frameEnd_tone, bne_iff_ne, Nat.pos_iff_ne_zero, ne_eq, ne_eq, BitVec.toNat_eq]
  rfl

/-- The tone at the (k + 1)-th FRAME_END: ST has lost k by then and must still be positive. -/
theorem tone_frameEnds_succ (k : Nat) (s : State) :
    (State.frameEnd^[k + 1] s).tone = true ↔ k + 1 ≤ s.st.toNat := by
  rw [Function.iterate_succ_apply', State.frameEnd_tone_iff, toNat_st_frameEnds, Nat.sub_pos_iff_lt, Nat.succ_le_iff]

/-! ### The instructions -/

theorem exec_ldI (nnn : Addr) (s : State) : exec (.ldI nnn) s = .next (s.setI (zextAddr nnn)) := rfl

theorem exec_ldVxDT (x : Reg) (s : State) : exec (.ldVxDT x) s = .next (s.setV x s.dt) := rfl

theorem exec_ldDTVx (x : Reg) (s : State) : exec (.ldDTVx x) s = .next (s.setDT (s.getV x)) := rfl

theorem exec_ldSTVx (x : Reg) (s : State) : exec (.ldSTVx x) s = .next (s.setST (s.getV x)) := rfl

/-- Settles O50: the word is the encoding of LD I, and the instruction is one write of I. -/
theorem ldISetsTheAddressRegister : Obligations.LdISetsTheAddressRegister := fun nnn =>
  ⟨decode_encode (.ldI nnn), fun s => ⟨_, exec_ldI nnn s, toNat_zextAddr nnn, frame_setI s _⟩⟩

/-- Settles O52: the words are encodings, each instruction is one write, of V[x], DT or ST; what the FRAME_ENDs after it
make of a timer is their own law for any value. -/
theorem timerMoves : Obligations.TimerMoves := by
  refine fun x => ⟨decode_encode (.ldVxDT x), decode_encode (.ldDTVx x), decode_encode (.ldSTVx x),
    fun s => ⟨?_, ?_, ?_⟩⟩
  · exact ⟨_, exec_ldVxDT x s, State.getV_setV_same s x s.dt, sameBut_setV s x s.dt⟩
  · exact ⟨_, exec_ldDTVx x s, rfl, toNat_countdown (s.getV x), rfl, frame_of_timers (sound := s.st) rfl⟩
  · refine ⟨_, exec_ldSTVx x s, rfl, fun k => ?_, rfl, frame_of_timers (delay := s.dt) rfl⟩
    exact ⟨_, runEvents_frameEnds (k + 1) _, tone_frameEnds_succ k (s.setST (s.getV x))⟩

end Sys2Proof.Machine
end

section
/-! LD B (45_timers_index_memory.md R176): the store is one block write of three bytes at I. -/

namespace Sys2Proof.Machine

/-- Element k of a block stands k bytes above its first (R177). -/
theorem State.effAddr_zero_add (s : State) (k : Nat) : s.effAddr 0 + k = s.effAddr k := rfl

/-- A block write touches nothing but memory. -/
theorem frame_writeBytes (s : State) (addr n : Nat) (f : Nat → Byte) :
    SameV s (s.writeBytes addr n f) ∧ (s.writeBytes addr n f).pc = s.pc ∧ SameI s (s.writeBytes addr n f) ∧
      SameFB s (s.writeBytes addr n f) ∧ SameStack s (s.writeBytes addr n f) ∧ SameTimers s (s.writeBytes addr n f) ∧
      SameEnv s (s.writeBytes addr n f) :=
  ⟨fun _ => rfl, rfl, rfl, fun _ _ _ _ => rfl, ⟨rfl, rfl⟩, ⟨rfl, rfl⟩, rfl, rfl, rfl, rfl, rfl, rfl, rfl⟩

theorem exec_ldB (x : Reg) (s : State) :
    exec (.ldB x) s = .next (s.writeBytes (s.effAddr 0) 3 (bcdDigit (s.getV x))) := rfl

/-- Every cell of the block that LD B writes holds its digit. -/
theorem State.readByte_bcd {s : State} (h : s.mem.wf = true) (val : Byte) {k : Nat} (hk : k < 3) :
    (s.writeBytes (s.effAddr 0) 3 (bcdDigit val)).readByte (s.effAddr k) = bcdDigit val k := by
  rw [← State.effAddr_zero_add]
  exact State.readByte_writeBytes_inside h (by decide) hk

/-- Settles O54: the word is the encoding of LD B; inside the block the cells hold the digits, outside it and in the rest
of the state nothing changes. -/
theorem ldBStoresTheDigits : Obligations.LdBStoresTheDigits := by
  refine fun x => ⟨decode_encode (.ldB x), fun s hwf => ⟨_, exec_ldB x s, ?_⟩⟩
  obtain ⟨hundreds, tens, ones⟩ := toNat_bcdDigit (s.getV x)
  have hcell {k : Nat} (hk : k < 3) := State.readByte_bcd hwf (s.getV x) hk
  refine ⟨?_, ?_, ?_, fun a ha => State.readByte_writeBytes_outside hwf ha, frame_writeBytes s _ _ _⟩
  · rw [hcell (by decide), hundreds]
  · rw [hcell (by decide), tens]
  · rw [hcell (by decide), ones]

end Sys2Proof.Machine
end

section
/-! The events between ticks (60_exceptions.md R210, R211, R212): what FRAME_START and FRAME_END write and what they
leave unchanged. -/

namespace Sys2Proof.Machine

theorem applyEvent_frameStart (keys : BitVec 16) (s : State) :
    applyEvent (.frameStart keys) s = .next (s.frameStart keys) := rfl

theorem applyEvent_frameEnd (s : State) : applyEvent .frameEnd s = .next s.frameEnd := rfl

/-- FRAME_START writes nothing but KEY. -/
theorem frame_frameStart (s : State) (keys : BitVec 16) :
    SameV s (s.frameStart keys) ∧ (s.frameStart keys).pc = s.pc ∧ SameMem s (s.frameStart keys) ∧
      SameFB s (s.frameStart keys) ∧ SameStack s (s.frameStart keys) ∧ SameI s (s.frameStart keys) ∧
      SameTimers s (s.frameStart keys) ∧ (s.frameStart keys).tone = s.tone :=
  ⟨fun _ => rfl, rfl, fun _ => rfl, fun _ _ _ _ => rfl, ⟨rfl, rfl⟩, rfl, ⟨rfl, rfl⟩, rfl⟩

/-- FRAME_END writes nothing but the timers and TONE. -/
theorem frame_frameEnd (s : State) :
    SameV s s.frameEnd ∧ s.frameEnd.pc = s.pc ∧ SameMem s s.frameEnd ∧ SameFB s s.frameEnd ∧ SameStack s s.frameEnd ∧
      SameI s s.frameEnd ∧ s.frameEnd.key = s.key :=
  ⟨fun _ => rfl, rfl, fun _ => rfl, fun _ _ _ _ => rfl, ⟨rfl, rfl⟩, rfl, rfl⟩

/-- A positive timer loses exactly 1. -/
theorem toNat_countdown_add_one {t : Byte} (h : 0 < t.toNat) : (countdown t).toNat + 1 = t.toNat := by
  rw [toNat_countdown, Nat.sub_add_cancel h]

/-- A timer at 0 stays there. -/
theorem countdown_of_eq_zero {t : Byte} (h : t = 0) : countdown t = 0 := if_pos h

/-- Settles O12: KEY becomes the given flags as a whole, and nothing else is written. -/
theorem frameStartReplacesTheKeys : Obligations.FrameStartReplacesTheKeys := fun s keys =>
  ⟨_, applyEvent_frameStart keys s, fun _ _ => rfl, frame_frameStart s keys⟩

/-- Settles O13: TONE is ST as it was before the event, and the two timers follow the one law of the countdown. -/
theorem frameEndSamplesThenCounts : Obligations.FrameEndSamplesThenCounts := by
  intro s
  have htone : s.frameEnd.tone = true ↔ s.st ≠ 0 := by rw [State.frameEnd_tone, bne_iff_ne]
  exact ⟨_, applyEvent_frameEnd s, htone, toNat_countdown_add_one, countdown_of_eq_zero, toNat_countdown_add_one,
    countdown_of_eq_zero, frame_frameEnd s⟩

end Sys2Proof.Machine
end

section
/-! No instruction, tick or step stops the machine (60_exceptions.md R200). -/

namespace Sys2Proof.Machine

/-- Every arm of `exec` answers one next state, whatever the state it is given. -/
theorem exec_completes (i : Instr) (s : State) : ∃ t, exec i s = .next t := by
  cases i <;> exact ⟨_, rfl⟩

/-- A tick whose word decodes executes the instruction in the post-fetch state (30_encoding.md R70). -/
theorem tick_of_instr {s : State} {i : Instr} (h : decode (s.fetch s.pc) = .instr i) (r : Draw) :
    tick r s = exec i (s.postFetch r) := by
  rw [tick, h]

/-- A tick whose word is unrecognised does nothing more than report it (30_encoding.md R76). -/
theorem tick_of_unrecognised {s : State} {u : Unrecognised} (h : decode (s.fetch s.pc) = .unrecognised u) (r : Draw) :
    tick r s = .next ((s.postFetch r).reportBadOpcode (s.fetch s.pc) s.pc) := by
  rw [tick, h]

theorem tick_completes (r : Draw) (s : State) : ∃ t, tick r s = .next t := by
  cases h : decode (s.fetch s.pc) with
  | instr i =>
    rw [tick_of_instr h]
    exact exec_completes i (s.postFetch r)
  | unrecognised u => exact ⟨_, tick_of_unrecognised h r⟩

/-- The only event that can be refused is a RESET. -/
theorem applyEvent_completes {e : Event} (h : ∀ rom, e ≠ .reset rom) (s : State) : ∃ t, applyEvent e s = .next t := by
  cases e with
  | reset rom => exact absurd rfl (h rom)
  | frameStart keys => exact ⟨_, applyEvent_frameStart keys s⟩
  | tick r => exact tick_completes r s
  | frameEnd => exact ⟨_, applyEvent_frameEnd s⟩

/-- The environment's order of a frame (00_scope.md R9) holds no RESET. -/
theorem State.nextEvent_ne_reset (s : State) (rom : List Byte) : s.nextEvent ≠ .reset rom := by
  rw [State.nextEvent]
  split <;> nofun

theorem step_completes (s : State) : ∃ t, step s = .next t :=
  applyEvent_completes s.nextEvent_ne_reset s.advanceFrame

/-- Settles O15: an instruction always answers a next state, so a tick does, and a step is a tick or an event that is
not a RESET. -/
theorem everyTickCompletes : Obligations.EveryTickCompletes := ⟨exec_completes, tick_completes, step_completes⟩

end Sys2Proof.Machine
end

section
/-! Which words decode (30_encoding.md R75, R76): R76's list of the unrecognised words, from which `wellFormedWord` is
written, and R75's table, from which the decoder is written, name the same words. -/

namespace Sys2Proof

/-- The decoder found an instruction. -/
def Decoded.isInstr : Decoded → Bool
  | .instr _ => true
  | .unrecognised _ => false

theorem Decoded.isInstr_iff (d : Decoded) : d.isInstr = true ↔ ∃ i, d = .instr i := by
  cases d <;> simp [Decoded.isInstr]

theorem isInstr_decodeGroup0 (kk : Byte) : (decodeGroup0 kk).isInstr = (kk == 0xE0 || kk == 0xEE) := by
  unfold decodeGroup0
  split <;> simp_all [Decoded.isInstr]

theorem isInstr_decodeGroup8 (x y : Reg) (n : Nibble) :
    (decodeGroup8 x y n).isInstr = !([8, 9, 0xA, 0xB, 0xC, 0xD, 0xF] : List Nibble).contains n := by
  rcases nibble_cases n with h | h | h | h | h | h | h | h | h | h | h | h | h | h | h | h <;> subst h <;> rfl

theorem isInstr_decodeGroupE (x : Reg) (kk : Byte) :
    (decodeGroupE x kk).isInstr = (kk == 0x9E || kk == 0xA1) := by
  unfold decodeGroupE
  split <;> simp_all [Decoded.isInstr]

theorem isInstr_decodeGroupF (x : Reg) (kk : Byte) : (decodeGroupF x kk).isInstr =
    ([0x07, 0x0A, 0x15, 0x18, 0x1E, 0x29, 0x33, 0x55, 0x65] : List Byte).contains kk := by
  unfold decodeGroupF
  split <;> simp_all [Decoded.isInstr]

/-- The two lists agree: group by group in the four groups that hold unrecognised words, and in the other twelve every
word is an instruction. -/
theorem isInstr_decode (w : Word) : (decode w).isInstr = wellFormedWord w := by
  unfold decode wellFormedWord
  rcases nibble_cases (opField w) with h | h | h | h | h | h | h | h | h | h | h | h | h | h | h | h <;> rw [h]
  any_goals rfl
  · exact isInstr_decodeGroup0 (kkField w)
  · exact isInstr_decodeGroup8 (xField w) (yField w) (nField w)
  · exact isInstr_decodeGroupE (xField w) (kkField w)
  · exact isInstr_decodeGroupF (xField w) (kkField w)

/-- An instruction word is one that decodes to an instruction. -/
theorem wellFormedWord_iff (w : Word) : wellFormedWord w = true ↔ ∃ i, decode w = .instr i := by
  rw [← isInstr_decode, Decoded.isInstr_iff]

/-- The word that encodes an instruction is an instruction word. -/
theorem instr_wellFormed (i : Instr) : i.wellFormed = true := (wellFormedWord_iff (encode i)).2 ⟨i, decode_encode i⟩

namespace Machine

/-- Settles O1: the decoder inverts the encoder, and R76 calls unrecognised only what the decoder does not decode. -/
theorem decodeInvertsEncode : Obligations.DecodeInvertsEncode :=
  fun i => ⟨instr_wellFormed i, decode_encode i⟩

end Machine
end Sys2Proof
end

section
/-! Decoding, then encoding again (30_encoding.md R73, R75; 92_eei_decisions.md D2): the word comes back but for the bits
the decoder ignores, and it selects the row of its instruction. -/

namespace Sys2Proof

/-! ### A word with its ignored bits cleared -/

/-- Shape A: no bit is ignored. -/
theorem shapeA_and_used {w : Word} {o : Nibble} (h : opField w = o) : o ++ nnnField w = w &&& 0xFFFF := by
  subst h
  exact (word_eq_shapeA w).symm.trans BitVec.and_allOnes.symm

/-- Shape K: no bit is ignored. -/
theorem shapeK_and_used {w : Word} {o : Nibble} (h : opField w = o) : o ++ xField w ++ kkField w = w &&& 0xFFFF := by
  subst h
  exact (word_eq_shapeK w).symm.trans BitVec.and_allOnes.symm

theorem nibble_and_F (x : Nibble) : x &&& 0xF#4 = x := BitVec.and_allOnes

theorem byte_and_FF (b : Byte) : b &&& 0xFF#8 = b := BitVec.and_allOnes

/-- Shape R: a mask of four digits acts on each digit by itself. -/
theorem and_shapeR {w : Word} {o : Nibble} (h : opField w = o) (a b c d : Nibble) :
    w &&& (a ++ b ++ c ++ d : BitVec (4 + 4 + 4 + 4)) =
      (o &&& a) ++ (xField w &&& b) ++ (yField w &&& c) ++ (nField w &&& d) := by
  subst h
  rw [← BitVec.and_append, ← BitVec.and_append, ← BitVec.and_append, ← word_eq_shapeR]

/-- All four digits are used. -/
theorem shapeR_and_used {w : Word} {o : Nibble} (h : opField w = o) :
    o ++ xField w ++ yField w ++ nField w = w &&& 0xFFFF := by
  subst h
  exact (word_eq_shapeR w).symm.trans BitVec.and_allOnes.symm

/-- The low digit is ignored. -/
theorem shapeR_and_used_xy {w : Word} {o : Nibble} (h : opField w = o) :
    o ++ xField w ++ yField w ++ 0x0#4 = w &&& 0xFFF0 := by
  have hmask := and_shapeR h 0xF#4 0xF#4 0xF#4 0x0#4
  rw [nibble_and_F, nibble_and_F, nibble_and_F, BitVec.and_zero] at hmask
  exact hmask.symm

/-- The y digit is ignored. -/
theorem shapeR_and_used_xn {w : Word} {o : Nibble} (h : opField w = o) :
    o ++ xField w ++ 0x0#4 ++ nField w = w &&& 0xFF0F := by
  have hmask := and_shapeR h 0xF#4 0xF#4 0x0#4 0xF#4
  rw [nibble_and_F, nibble_and_F, nibble_and_F, BitVec.and_zero] at hmask
  exact hmask.symm

/-- Shape K with bits 11:8 ignored. -/
theorem shapeK_and_used_kk {w : Word} {o : Nibble} (h : opField w = o) :
    o ++ 0x0#4 ++ kkField w = w &&& 0xF0FF := by
  subst h
  conv_rhs => rw [word_eq_shapeK w]
  change _ = (opField w ++ xField w ++ kkField w : BitVec (4 + 4 + 8)) &&& (0xF#4 ++ 0x0#4 ++ 0xFF#8)
  rw [BitVec.and_append, BitVec.and_append, nibble_and_F, BitVec.and_zero, byte_and_FF]

/-! ### Group by group -/

namespace Machine

theorem encode_of_decodeGroup0 {w : Word} {i : Instr} (ho : opField w = 0x0#4)
    (h : decodeGroup0 (kkField w) = .instr i) : encode i = w &&& usedBits i := by
  have hused := shapeK_and_used_kk ho
  unfold decodeGroup0 at h
  split at h <;> cases h
  all_goals
    next hkk => rw [hkk] at hused; exact hused

theorem encode_of_decodeGroup8 {w : Word} {i : Instr} (ho : opField w = 0x8#4)
    (h : decodeGroup8 (xField w) (yField w) (nField w) = .instr i) : encode i = w &&& usedBits i := by
  have hused := shapeR_and_used ho
  have hshift := shapeR_and_used_xn ho
  unfold decodeGroup8 at h
  split at h <;> cases h <;> rename_i hn <;> rw [hn] at hused hshift
  case h_7 | h_9 => exact hshift
  all_goals exact hused

theorem encode_of_decodeGroupE {w : Word} {i : Instr} (ho : opField w = 0xE#4)
    (h : decodeGroupE (xField w) (kkField w) = .instr i) : encode i = w &&& usedBits i := by
  have hused := shapeK_and_used ho
  unfold decodeGroupE at h
  split at h <;> cases h
  all_goals
    next hkk => rw [hkk] at hused; exact hused

theorem encode_of_decodeGroupF {w : Word} {i : Instr} (ho : opField w = 0xF#4)
    (h : decodeGroupF (xField w) (kkField w) = .instr i) : encode i = w &&& usedBits i := by
  have hused := shapeK_and_used ho
  unfold decodeGroupF at h
  split at h <;> cases h
  all_goals
    next hkk => rw [hkk] at hused; exact hused

/-- An instruction's own word is the word it was decoded from with the ignored bits cleared: the word is put together
again from its fields, in the shape of its group. -/
theorem encode_of_decode {w : Word} {i : Instr} (h : decode w = .instr i) : encode i = w &&& usedBits i := by
  unfold decode at h
  rcases nibble_cases (opField w) with
    ho | ho | ho | ho | ho | ho | ho | ho | ho | ho | ho | ho | ho | ho | ho | ho <;> rw [ho] at h
  · exact encode_of_decodeGroup0 ho h
  · cases h; exact shapeA_and_used ho
  · cases h; exact shapeA_and_used ho
  · cases h; exact shapeK_and_used ho
  · cases h; exact shapeK_and_used ho
  · cases h; exact shapeR_and_used_xy ho
  · cases h; exact shapeK_and_used ho
  · cases h; exact shapeK_and_used ho
  · exact encode_of_decodeGroup8 ho h
  · cases h; exact shapeR_and_used_xy ho
  · cases h; exact shapeA_and_used ho
  · cases h; exact shapeA_and_used ho
  · cases h; exact shapeK_and_used ho
  · cases h; exact shapeR_and_used ho
  · exact encode_of_decodeGroupE ho h
  · exact encode_of_decodeGroupF ho h

/-- Every instruction's word selects its row, and the row is in the table. -/
theorem rowMatch (i : Instr) : Laws.RowMatch.Statement i := by
  cases i with
  | cls => exact Laws.RowMatch.cls
  | ret => exact Laws.RowMatch.ret
  | jp nnn => exact Laws.RowMatch.jp nnn
  | call nnn => exact Laws.RowMatch.call nnn
  | seImm x kk => exact Laws.RowMatch.seImm x kk
  | sneImm x kk => exact Laws.RowMatch.sneImm x kk
  | seReg x y => exact Laws.RowMatch.seReg x y
  | ldImm x kk => exact Laws.RowMatch.ldImm x kk
  | addImm x kk => exact Laws.RowMatch.addImm x kk
  | ldReg x y => exact Laws.RowMatch.ldReg x y
  | orReg x y => exact Laws.RowMatch.orReg x y
  | andReg x y => exact Laws.RowMatch.andReg x y
  | xorReg x y => exact Laws.RowMatch.xorReg x y
  | addReg x y => exact Laws.RowMatch.addReg x y
  | subReg x y => exact Laws.RowMatch.subReg x y
  | shr x => exact Laws.RowMatch.shr x
  | subn x y => exact Laws.RowMatch.subn x y
  | shl x => exact Laws.RowMatch.shl x
  | sneReg x y => exact Laws.RowMatch.sneReg x y
  | ldI nnn => exact Laws.RowMatch.ldI nnn
  | jpV0 nnn => exact Laws.RowMatch.jpV0 nnn
  | rnd x kk => exact Laws.RowMatch.rnd x kk
  | drw x y n => exact Laws.RowMatch.drw x y n
  | skp x => exact Laws.RowMatch.skp x
  | sknp x => exact Laws.RowMatch.sknp x
  | ldVxDT x => exact Laws.RowMatch.ldVxDT x
  | ldVxK x => exact Laws.RowMatch.ldVxK x
  | ldDTVx x => exact Laws.RowMatch.ldDTVx x
  | ldSTVx x => exact Laws.RowMatch.ldSTVx x
  | addI x => exact Laws.RowMatch.addI x
  | ldF x => exact Laws.RowMatch.ldF x
  | ldB x => exact Laws.RowMatch.ldB x
  | storeRegs x => exact Laws.RowMatch.storeRegs x
  | loadRegs x => exact Laws.RowMatch.loadRegs x

/-- The decoder ignores no bit that the row's mask looks at. -/
theorem usedBits_and_mask (i : Instr) : usedBits i &&& (rowOf i).mask = (rowOf i).mask := by
  cases i <;> simp only [usedBits, rowOf] <;> decide

/-- A word selects the row of the instruction it decodes to: on the bits of the mask it agrees with the instruction's
own word. -/
theorem selects_of_decode {w : Word} {i : Instr} (h : decode w = .instr i) : (rowOf i).selects w = true := by
  have hown : encode i &&& (rowOf i).mask = (rowOf i).pattern := beq_iff_eq.1 (rowMatch i).2
  refine beq_iff_eq.2 ?_
  rw [encode_of_decode h, BitVec.and_assoc, usedBits_and_mask] at hown
  exact hown

/-- Settles O3. -/
theorem decodedWordIsItsEncoding : Obligations.DecodedWordIsItsEncoding := fun _ _ h =>
  ⟨selects_of_decode h, encode_of_decode h⟩

end Machine
end Sys2Proof
end

section
/-! The rows of the decode table (30_encoding.md R75, R76) as a partition of the instruction words: no two rows select one
word, and a row selects instruction words only. -/

namespace Sys2Proof

/-- A word is well-formed by the fields its group looks at. -/
theorem wellFormedWord_congr {w p : Word} (hop : opField w = opField p)
    (hkk : opField p ∈ ([0x0, 0xE, 0xF] : List Nibble) → kkField w = kkField p)
    (hn : opField p = 0x8 → nField w = nField p) : wellFormedWord w = wellFormedWord p := by
  unfold wellFormedWord wfGroup0 wfGroup8 wfGroupE wfGroupF
  rw [hop]
  split
  · next h => rw [hkk (by simp [h])]
  split
  · next h => rw [hn h]
  split
  · next h => rw [hkk (by simp [h])]
  split
  · next h => rw [hkk (by simp [h])]
  · rfl

theorem opField_and (a b : Word) : opField (a &&& b) = opField a &&& opField b := BitVec.extractLsb'_and

theorem kkField_and (a b : Word) : kkField (a &&& b) = kkField a &&& kkField b := BitVec.extractLsb'_and

theorem nField_and (a b : Word) : nField (a &&& b) = nField a &&& nField b := BitVec.extractLsb'_and

/-- Row by row: its pattern is an instruction word, and its mask holds every field that the group of the pattern looks
at. -/
theorem mask_holds_fields : ∀ r ∈ opcodeRows, wellFormedWord r.pattern = true ∧ opField r.mask = 0xF#4 ∧
    (opField r.pattern ∈ ([0x0, 0xE, 0xF] : List Nibble) → kkField r.mask = 0xFF#8) ∧
    (opField r.pattern = 0x8 → nField r.mask = 0xF#4) := by
  decide

/-- A row selects instruction words only: they agree with its pattern on the fields that tell. -/
theorem wellFormedWord_of_selects {r : Row} {w : Word} (hr : r ∈ opcodeRows) (h : r.selects w = true) :
    wellFormedWord w = true := by
  obtain ⟨hwf, hop, hkk, hn⟩ := mask_holds_fields r hr
  have hp : w &&& r.mask = r.pattern := beq_iff_eq.1 h
  rw [← hwf]
  refine wellFormedWord_congr ?_ (fun hg => ?_) (fun hg => ?_)
  · rw [← hp, opField_and, hop, nibble_and_F]
  · rw [← hp, kkField_and, hkk hg, byte_and_FF]
  · rw [← hp, nField_and, hn hg, nibble_and_F]

/-- Any two rows differ in a bit that both look at. -/
theorem rows_disjoint : ∀ r ∈ opcodeRows, ∀ r' ∈ opcodeRows,
    r.pattern &&& r'.mask = r'.pattern &&& r.mask → r = r' := by
  decide

theorem nodup_opcodeRows : opcodeRows.Nodup := by decide

/-- A word selects no two rows. -/
theorem row_unique {r r' : Row} {w : Word} (hr : r ∈ opcodeRows) (hr' : r' ∈ opcodeRows) (h : r.selects w = true)
    (h' : r'.selects w = true) : r = r' := by
  refine rows_disjoint r hr r' hr' ?_
  have hp : w &&& r.mask = r.pattern := beq_iff_eq.1 h
  have hp' : w &&& r'.mask = r'.pattern := beq_iff_eq.1 h'
  rw [← hp, ← hp', BitVec.and_assoc, BitVec.and_assoc, BitVec.and_comm r.mask]

namespace Machine

/-- The rows a decoded word selects: the row of its instruction, and that alone. -/
theorem filter_selects_of_decode {w : Word} {i : Instr} (h : decode w = .instr i) :
    opcodeRows.filter (fun r => r.selects w) = opcodeRows.filter (fun r => r == rowOf i) := by
  refine List.filter_congr fun r hr => Bool.eq_iff_iff.2 ?_
  rw [beq_iff_eq]
  constructor
  · exact fun hsel => row_unique hr (rowMatch i).1 hsel (selects_of_decode h)
  · rintro rfl
    exact selects_of_decode h

/-- Settles O4: an instruction word selects its own row, which stands once in the table; a row selects no other word. -/
theorem rowsPartitionTheWords : Obligations.RowsPartitionTheWords := by
  intro w
  cases hwf : wellFormedWord w with
  | true =>
    obtain ⟨i, hi⟩ := (wellFormedWord_iff w).1 hwf
    rw [filter_selects_of_decode hi, ← List.countP_eq_length_filter]
    exact List.count_eq_one_of_mem nodup_opcodeRows (rowMatch i).1
  | false =>
    have hnone : opcodeRows.filter (fun r => r.selects w) = [] := List.filter_eq_nil_iff.2 fun r hr hsel => by
      rw [wellFormedWord_of_selects hr hsel] at hwf
      cases hwf
    rw [hnone]
    rfl

end Machine
end Sys2Proof
end

section
/-! How many words of each group are unrecognised (30_encoding.md R76). -/

namespace Sys2Proof

/-- The numbers of the listed words of n bits, as a list without repetition, are as many as the list is long. -/
theorem length_filter_listed {n : Nat} {L : List (BitVec n)} (hL : L.Nodup) :
    ((List.range (2 ^ n)).filter (fun k => L.contains (BitVec.ofNat n k))).length = L.length := by
  have hnodup : (L.map BitVec.toNat).Nodup := hL.map fun _ _ => BitVec.eq_of_toNat_eq
  have hperm : ((List.range (2 ^ n)).filter (fun k => L.contains (BitVec.ofNat n k))).Perm (L.map BitVec.toNat) := by
    refine (List.perm_ext_iff_of_nodup (List.nodup_range.filter _) hnodup).2 fun k => ?_
    rw [List.mem_filter, List.mem_range, List.contains_iff_mem, List.mem_map]
    constructor
    · rintro ⟨hk, hmem⟩
      exact ⟨_, hmem, Nat.mod_eq_of_lt hk⟩
    · rintro ⟨b, hb, rfl⟩
      exact ⟨b.isLt, by rwa [BitVec.ofNat_toNat, BitVec.setWidth_eq]⟩
  rw [hperm.length_eq, List.length_map]

/-- All other words of n bits. -/
theorem length_filter_not_listed {n : Nat} {L : List (BitVec n)} (hL : L.Nodup) :
    ((List.range (2 ^ n)).filter (fun k => !L.contains (BitVec.ofNat n k))).length = 2 ^ n - L.length := by
  have hsum := List.length_eq_length_filter_add (l := List.range (2 ^ n)) (fun k => L.contains (BitVec.ofNat n k))
  rw [length_filter_listed hL, List.length_range] at hsum
  exact Nat.eq_sub_of_add_eq' hsum.symm

theorem wellFormedWord_group0 (x : Nibble) (kk : Byte) :
    wellFormedWord (0x0#4 ++ x ++ kk) = ([0xE0, 0xEE] : List Byte).contains kk := by
  rw [← isInstr_decode, decode_group0, isInstr_decodeGroup0, List.contains_cons, List.contains_cons,
    List.contains_nil, Bool.or_false]

theorem wellFormedWord_group8 (x y n : Nibble) : wellFormedWord (0x8#4 ++ x ++ y ++ n) =
    !([8, 9, 0xA, 0xB, 0xC, 0xD, 0xF] : List Nibble).contains n := by
  rw [← isInstr_decode, decode_group8, isInstr_decodeGroup8]

theorem wellFormedWord_groupE (x : Nibble) (kk : Byte) :
    wellFormedWord (0xE#4 ++ x ++ kk) = ([0x9E, 0xA1] : List Byte).contains kk := by
  rw [← isInstr_decode, decode_groupE, isInstr_decodeGroupE, List.contains_cons, List.contains_cons,
    List.contains_nil, Bool.or_false]

theorem wellFormedWord_groupF (x : Nibble) (kk : Byte) : wellFormedWord (0xF#4 ++ x ++ kk) =
    ([0x07, 0x0A, 0x15, 0x18, 0x1E, 0x29, 0x33, 0x55, 0x65] : List Byte).contains kk := by
  rw [← isInstr_decode, decode_groupF, isInstr_decodeGroupF]

namespace Machine

/-- Settles O7: in the four groups the other digits do not matter, so each count is one finite count; in a group outside
the four every word is an instruction. -/
theorem unrecognisedWordCounts : Obligations.UnrecognisedWordCounts := by
  refine ⟨fun x => ⟨?_, ?_, ?_⟩, fun x y => ?_, fun o x kk h0 h8 hE hF => ?_⟩
  · simp only [wellFormedWord_group0]; exact length_filter_not_listed (n := 8) (L := [0xE0, 0xEE]) (by decide)
  · simp only [wellFormedWord_groupE]; exact length_filter_not_listed (n := 8) (L := [0x9E, 0xA1]) (by decide)
  · simp only [wellFormedWord_groupF]; exact length_filter_not_listed (n := 8)
      (L := [0x07, 0x0A, 0x15, 0x18, 0x1E, 0x29, 0x33, 0x55, 0x65]) (by decide)
  · simp only [wellFormedWord_group8]; decide
  · rw [wellFormedWord, opField_shapeK, if_neg h0, if_neg h8, if_neg hE, if_neg hF]

/-- Settles O8. -/
theorem sampleWordsDecode : Obligations.SampleWordsDecode := by
  unfold Obligations.SampleWordsDecode
  decide

end Machine
end Sys2Proof
end

section
/-! What each remaining instruction answers, as the update it makes (41_alu.md, 40_control_flow.md, 43_display.md,
44_keypad.md, 45_timers_index_memory.md). -/

namespace Sys2Proof.Machine

theorem exec_cls (s : State) : exec .cls s = .next (s.setFB FrameBuffer.clear) := rfl

theorem exec_ret (s : State) : exec .ret s = .next (s.popState.setPC s.popValue) := rfl

theorem exec_jpV0 (nnn : Addr) (s : State) :
    exec (.jpV0 nnn) s = .next (s.setPC (zextAddr nnn + zextByte (s.getV 0))) := rfl

theorem exec_seReg (x y : Reg) (s : State) : exec (.seReg x y) s = .next (s.skipIf (s.getV x == s.getV y)) := rfl

theorem exec_sneReg (x y : Reg) (s : State) : exec (.sneReg x y) s = .next (s.skipIf (s.getV x != s.getV y)) := rfl

theorem exec_orReg (x y : Reg) (s : State) : exec (.orReg x y) s = .next (s.setV x (s.getV x ||| s.getV y)) := rfl

theorem exec_andReg (x y : Reg) (s : State) : exec (.andReg x y) s = .next (s.setV x (s.getV x &&& s.getV y)) := rfl

theorem exec_xorReg (x y : Reg) (s : State) : exec (.xorReg x y) s = .next (s.setV x (s.getV x ^^^ s.getV y)) := rfl

theorem exec_addReg (x y : Reg) (s : State) : exec (.addReg x y) s =
    .next (s.setResultFlag x (s.getV x + s.getV y) (carry (s.getV x) (s.getV y))) := rfl

theorem exec_subReg (x y : Reg) (s : State) : exec (.subReg x y) s =
    .next (s.setResultFlag x (s.getV x - s.getV y) (notBorrow (s.getV x) (s.getV y))) := rfl

theorem exec_subn (x y : Reg) (s : State) : exec (.subn x y) s =
    .next (s.setResultFlag x (s.getV y - s.getV x) (notBorrow (s.getV y) (s.getV x))) := rfl

theorem exec_shr (x : Reg) (s : State) :
    exec (.shr x) s = .next (s.setResultFlag x (s.getV x >>> 1) (lowBit (s.getV x))) := rfl

theorem exec_shl (x : Reg) (s : State) :
    exec (.shl x) s = .next (s.setResultFlag x (s.getV x <<< 1) (highBit (s.getV x))) := rfl

theorem exec_drw (x y : Reg) (n : Nibble) (s : State) :
    exec (.drw x y n) s = .next ((s.setFB (s.drawn x y n).fb).setFlag (s.drawn x y n).hit) := rfl

theorem exec_ldVxK (x : Reg) (s : State) :
    exec (.ldVxK x) s = .next (s.setPC (if s.keyDown (s.getV x) then s.pc else s.pc - 2)) := rfl

theorem exec_addI (x : Reg) (s : State) : exec (.addI x) s =
    .next ((s.setI (BitVec.ofNat 16 ((s.i.toNat + (s.getV x).toNat) % 4096))).setFlag
      (indexOverflow s.i (s.getV x))) := rfl

theorem exec_ldF (x : Reg) (s : State) : exec (.ldF x) s = .next (s.setI (glyphAddr (s.getV x))) := rfl

theorem exec_storeRegs (x : Reg) (s : State) :
    exec (.storeRegs x) s = .next (s.writeBytes (s.effAddr 0) (x.toNat + 1) s.regAt) := rfl

theorem exec_loadRegs (x : Reg) (s : State) : exec (.loadRegs x) s = .next (s.setVs (x.toNat + 1) s.element) := rfl

end Sys2Proof.Machine
end

section
/-! What an instruction leaves unchanged (10_state.md R22, R24, R29, R31, R34, R37 to R40): said once, field by field,
for every instruction; the rules about who writes what follow from it. -/

namespace Sys2Proof.Machine

/-- Every field outside V that the instruction does not name as written is as it was. -/
structure Keeps (i : Instr) (s t : State) : Prop where
  env : SameEnv s t
  index : writesI i = false → t.i = s.i
  delay : writesDT i = false → t.dt = s.dt
  sound : writesST i = false → t.st = s.st
  stack : movesStack i = false → SameStack s t
  mem : writesMem i = false → t.mem = s.mem
  fb : writesFB i = false → t.fb = s.fb
  pc : movesPC i = false → t.pc = s.pc

theorem keeps_refl (i : Instr) (s : State) : Keeps i s s :=
  ⟨⟨rfl, rfl, rfl, rfl, rfl, rfl, rfl⟩, fun _ => rfl, fun _ => rfl, fun _ => rfl, fun _ => ⟨rfl, rfl⟩, fun _ => rfl,
    fun _ => rfl, fun _ => rfl⟩

/-- An update of V alone keeps every field, whatever the instruction. -/
theorem keeps_of_v {i : Instr} {s t : State} {v : Vector Byte 16} (h : t = { s with v := v }) : Keeps i s t := by
  subst h
  exact { keeps_refl i s with }

theorem keeps_of_pc {i : Instr} {s t : State} {w : Word} (hi : movesPC i = true) (h : t = { s with pc := w }) :
    Keeps i s t := by
  subst h
  exact { keeps_refl i s with pc := fun hn => Bool.noConfusion (hi.symm.trans hn) }

theorem keeps_of_stack {i : Instr} {s t : State} {cells : Vector Word 16} {depth : Fin 17} {w : Word}
    (hs : movesStack i = true) (hi : movesPC i = true) (h : t = { s with stack := cells, sp := depth, pc := w }) :
    Keeps i s t := by
  subst h
  exact { keeps_refl i s with
    stack := fun hn => Bool.noConfusion (hs.symm.trans hn), pc := fun hn => Bool.noConfusion (hi.symm.trans hn) }

theorem keeps_of_index {i : Instr} {s t : State} {w : Word} {v : Vector Byte 16} (hi : writesI i = true)
    (h : t = { s with i := w, v := v }) : Keeps i s t := by
  subst h
  exact { keeps_refl i s with index := fun hn => Bool.noConfusion (hi.symm.trans hn) }

theorem keeps_of_fb {i : Instr} {s t : State} {fb : FrameBuffer} {v : Vector Byte 16} (hi : writesFB i = true)
    (h : t = { s with fb := fb, v := v }) : Keeps i s t := by
  subst h
  exact { keeps_refl i s with fb := fun hn => Bool.noConfusion (hi.symm.trans hn) }

theorem keeps_of_mem {i : Instr} {s t : State} {m : Memory} (hi : writesMem i = true)
    (h : t = { s with mem := m }) : Keeps i s t := by
  subst h
  exact { keeps_refl i s with mem := fun hn => Bool.noConfusion (hi.symm.trans hn) }

theorem keeps_setDT (x : Reg) (s : State) (val : Byte) : Keeps (.ldDTVx x) s (s.setDT val) :=
  { keeps_refl (.ldDTVx x) s with delay := nofun }

theorem keeps_setST (x : Reg) (s : State) (val : Byte) : Keeps (.ldSTVx x) s (s.setST val) :=
  { keeps_refl (.ldSTVx x) s with sound := nofun }

/-- Every instruction answers a next state, in which it keeps what it does not name. -/
theorem exec_keeps (i : Instr) (s : State) : ∃ t, exec i s = .next t ∧ Keeps i s t := by
  cases i with
  | ldImm | addImm | ldReg | orReg | andReg | xorReg | addReg | subReg | shr | subn | shl | rnd | ldVxDT | loadRegs =>
    exact ⟨_, rfl, keeps_of_v rfl⟩
  | jp | jpV0 | seImm | sneImm | seReg | sneReg | skp | sknp | ldVxK => exact ⟨_, rfl, keeps_of_pc rfl rfl⟩
  | call | ret => exact ⟨_, rfl, keeps_of_stack rfl rfl rfl⟩
  | ldI | addI | ldF => exact ⟨_, rfl, keeps_of_index rfl rfl⟩
  | cls | drw => exact ⟨_, rfl, keeps_of_fb rfl rfl⟩
  | ldB | storeRegs => exact ⟨_, rfl, keeps_of_mem rfl rfl⟩
  | ldDTVx x => exact ⟨_, rfl, keeps_setDT x s _⟩
  | ldSTVx x => exact ⟨_, rfl, keeps_setST x s _⟩

/-- What an answer of `exec` keeps. -/
theorem keeps_of_exec {i : Instr} {s t : State} (h : exec i s = .next t) : Keeps i s t := by
  obtain ⟨u, hu, hkeeps⟩ := exec_keeps i s
  obtain rfl : u = t := Host.Outcome.next.inj (hu.symm.trans h)
  exact hkeeps

/-- Settles O21. -/
theorem instructionsLeaveInputsAlone : Obligations.InstructionsLeaveInputsAlone := by
  intro i s
  obtain ⟨t, ht, hkeeps⟩ := exec_keeps i s
  exact ⟨t, ht, hkeeps.env⟩

/-- Settles O23. -/
theorem specialRegisterWriters : Obligations.SpecialRegisterWriters := by
  intro i s
  obtain ⟨t, ht, hkeeps⟩ := exec_keeps i s
  exact ⟨t, ht, hkeeps.index, hkeeps.delay, hkeeps.sound, hkeeps.stack⟩

theorem sameMem_of_mem_eq {s t : State} (h : t.mem = s.mem) : SameMem s t := fun a => by
  rw [State.readByte, State.readByte, h]

theorem sameFB_of_fb_eq {s t : State} (h : t.fb = s.fb) : SameFB s t := fun _ _ _ _ => by rw [h]

/-- Settles O24: the list of memory cells and the framebuffer are kept as a whole, so every byte and every cell is. -/
theorem memoryAndScreenWriters : Obligations.MemoryAndScreenWriters := by
  intro i s
  obtain ⟨t, ht, hkeeps⟩ := exec_keeps i s
  exact ⟨t, ht, fun h => sameMem_of_mem_eq (hkeeps.mem h), fun h => sameFB_of_fb_eq (hkeeps.fb h)⟩

/-! ### PC -/

/-- A skip leaves PC or moves it 2 on. -/
theorem State.skipIf_pc_cases (s : State) (c : Bool) : (s.skipIf c).pc = s.pc ∨ (s.skipIf c).pc = s.pc + 2 := by
  rw [State.skipIf_pc]
  cases c
  · exact .inl rfl
  · exact .inr rfl

/-- Each of the six skips is one `skipIf`. -/
theorem exec_of_isSkip {i : Instr} (h : isSkip i = true) (s : State) : ∃ c, exec i s = .next (s.skipIf c) := by
  cases i with
  | seImm | sneImm | seReg | sneReg | skp | sknp => exact ⟨_, rfl⟩
  | _ => cases h

/-- Settles O25. -/
theorem pcMoversAreControlTransfers : Obligations.PcMoversAreControlTransfers := by
  intro i s
  obtain ⟨t, ht, hkeeps⟩ := exec_keeps i s
  refine ⟨t, ht, hkeeps.pc, fun hskip => ?_, ?_⟩
  · obtain ⟨c, hc⟩ := exec_of_isSkip hskip s
    obtain rfl : s.skipIf c = t := Host.Outcome.next.inj (hc.symm.trans ht)
    exact s.skipIf_pc_cases c
  · rintro x rfl
    obtain rfl : s.setPC (if s.keyDown (s.getV x) then s.pc else s.pc - 2) = t :=
      Host.Outcome.next.inj ((exec_ldVxK x s).symm.trans ht)
    exact ite_eq_or_eq _ s.pc (s.pc - 2)

end Sys2Proof.Machine
end

section
/-! Which general registers an instruction writes (10_state.md R20, R22, R23). -/

namespace Sys2Proof.Machine

/-- The rule of R22 and R23 for one instruction: every register outside the named results, and outside VF where a flag is
set, is as it was, and a flag is exactly 0 or 1. -/
def WritesOnlyItsRegisters (i : Instr) (s t : State) : Prop :=
  (∀ r : Reg, r ∉ vWritten i → (setsFlag i = true → r ≠ vf) → t.getV r = s.getV r) ∧
  (setsFlag i = true → t.getV vf = 0 ∨ t.getV vf = 1)

theorem flagByte_cases (f : Bool) : flagByte f = 0 ∨ flagByte f = 1 := by
  cases f
  · exact .inl rfl
  · exact .inr rfl

/-- No register is touched. -/
theorem writesOnly_of_v_eq {i : Instr} {s t : State} (hf : setsFlag i = false) (h : t.v = s.v) :
    WritesOnlyItsRegisters i s t :=
  ⟨fun _ _ _ => by rw [State.getV, State.getV, h], fun hs => Bool.noConfusion (hf.symm.trans hs)⟩

/-- One result. -/
theorem writesOnly_setV {i : Instr} {x : Reg} (hx : vWritten i = [x]) (hf : setsFlag i = false) (s : State)
    (val : Byte) : WritesOnlyItsRegisters i s (s.setV x val) :=
  ⟨fun _ hr _ => State.getV_setV_ne s (List.ne_of_not_mem_cons (hx ▸ hr)) val,
    fun hs => Bool.noConfusion (hf.symm.trans hs)⟩

/-- The flag, on a state that has changed elsewhere. -/
theorem writesOnly_setFlag {i : Instr} (hf : setsFlag i = true) {s t : State} (h : t.v = s.v) (f : Bool) :
    WritesOnlyItsRegisters i s (t.setFlag f) := by
  refine ⟨fun r _ hr => ?_, fun _ => ?_⟩
  · rw [State.getV_setFlag, if_neg (hr hf), State.getV, State.getV, h]
  · rw [State.getV_setFlag, if_pos rfl]
    exact flagByte_cases f

/-- One result, then the flag. -/
theorem writesOnly_setResultFlag {i : Instr} {x : Reg} (hx : vWritten i = [x]) (hf : setsFlag i = true) (s : State)
    (val : Byte) (f : Bool) : WritesOnlyItsRegisters i s (s.setResultFlag x val f) := by
  refine ⟨fun r hr hvf => ?_, fun _ => ?_⟩
  · rw [State.getV_setResultFlag, if_neg (hvf hf), if_neg (List.ne_of_not_mem_cons (hx ▸ hr))]
  · rw [State.getV_setResultFlag, if_pos rfl]
    exact flagByte_cases f

/-- The registers that LD Vx, [I] names are those up to x. -/
theorem mem_vWritten_loadRegs {x r : Reg} (h : r.toNat ≤ x.toNat) : r ∈ vWritten (.loadRegs x) :=
  List.mem_map.2 ⟨r.toNat, List.mem_range.2 (Nat.lt_succ_of_le h),
    (BitVec.ofNat_toNat 4 r).trans (BitVec.setWidth_eq r)⟩

theorem writesOnly_loadRegs (x : Reg) (s : State) (f : Nat → Byte) :
    WritesOnlyItsRegisters (.loadRegs x) s (s.setVs (x.toNat + 1) f) := by
  refine ⟨fun r hr _ => ?_, nofun⟩
  rw [State.getV_setVs s x.isLt, if_neg fun hlt => hr (mem_vWritten_loadRegs (Nat.le_of_lt_succ hlt))]

/-- Settles O22: an instruction makes no write of V, one result, a flag, one result and then the flag, or the block that
LD Vx, [I] loads. -/
theorem generalRegisterWriters : Obligations.GeneralRegisterWriters := by
  intro i s
  cases i with
  | ldImm | addImm | ldReg | orReg | andReg | xorReg | rnd | ldVxDT => exact ⟨_, rfl, writesOnly_setV rfl rfl s _⟩
  | addReg | subReg | shr | subn | shl => exact ⟨_, rfl, writesOnly_setResultFlag rfl rfl s _ _⟩
  | drw | addI => exact ⟨_, rfl, writesOnly_setFlag rfl rfl _⟩
  | loadRegs x => exact ⟨_, exec_loadRegs x s, writesOnly_loadRegs x s s.element⟩
  | _ => exact ⟨_, rfl, writesOnly_of_v_eq rfl rfl⟩

end Sys2Proof.Machine
end

section
/-! What an instruction does not read (10_state.md R37 to R39, 42_random.md R140, 44_keypad.md R160): run from a state that
differs in a field the instruction does not read, it answers the same, but for that field. -/

namespace Sys2Proof.Machine

/-- Settles O26: ST and TONE stand in no arm of `exec`; the arm of Fx18 writes ST. -/
theorem noInstructionReadsSoundTimerOrTone : Obligations.NoInstructionReadsSoundTimerOrTone := by
  intro i s b c
  cases i <;> exact ⟨_, rfl, rfl⟩

/-- Settles O28: KEY stands in the arms of Ex9E, ExA1 and Fx0A only. -/
theorem keysReadOnlyByKeypadInstructions : Obligations.KeysReadOnlyByKeypadInstructions := by
  intro i s keys h
  cases i with
  | skp | sknp | ldVxK => cases h
  | _ => exact ⟨_, rfl, rfl⟩

/-- The draw stands in the arm of Cxkk only. -/
theorem exec_withDraw {i : Instr} (h : ∀ x kk, i ≠ .rnd x kk) (s : State) (r : Draw) :
    ∃ t, exec i s = .next t ∧ exec i { s with rndIn := r } = .next { t with rndIn := r } := by
  cases i with
  | rnd x kk => exact absurd rfl (h x kk)
  | _ => exact ⟨_, rfl, rfl⟩

/-- Settles O27: a tick puts its draw into the post-fetch state, where no instruction but Cxkk looks at it. -/
theorem drawMattersOnlyToRnd : Obligations.DrawMattersOnlyToRnd := by
  intro s r r' h
  cases hd : decode (s.fetch s.pc) with
  | instr i =>
    have hi : ∀ x kk, i ≠ .rnd x kk := fun x kk he => h x kk (by rw [hd, he])
    obtain ⟨t, ht, ht'⟩ := exec_withDraw hi (s.postFetch r) r'
    obtain ⟨-, -, -, hdraw, -⟩ := (keeps_of_exec ht).env
    exact ⟨t, (tick_of_instr hd r).trans ht, hdraw, (tick_of_instr hd r').trans ht'⟩
  | unrecognised u => exact ⟨_, tick_of_unrecognised hd r, rfl, tick_of_unrecognised hd r'⟩

end Sys2Proof.Machine
end

section
/-! What a tick does with the word at PC (30_encoding.md R70, R76; 92_eei_decisions.md D21). -/

namespace Sys2Proof.Machine

theorem decode_of_not_wellFormed {w : Word} (h : wellFormedWord w = false) : ∃ u, decode w = .unrecognised u := by
  cases hd : decode w with
  | instr i => rw [(wellFormedWord_iff w).2 ⟨i, hd⟩] at h; cases h
  | unrecognised u => exact ⟨u, rfl⟩

/-- Settles O5. -/
theorem unrecognisedWordIsReportedNoOp : Obligations.UnrecognisedWordIsReportedNoOp := by
  refine fun s r => ⟨fun hbad => ?_, fun hgood => ?_⟩
  · obtain ⟨u, hu⟩ := decode_of_not_wellFormed hbad
    exact ⟨_, tick_of_unrecognised hu r, rfl, rfl, fun _ => rfl, fun _ => rfl, fun _ _ _ _ => rfl, ⟨rfl, rfl⟩, rfl,
      ⟨rfl, rfl⟩, rfl, rfl⟩
  · obtain ⟨i, hi⟩ := (wellFormedWord_iff _).1 hgood
    exact ⟨i, hi, tick_of_instr hi r⟩

/-- Settles O6: the post-fetch state holds no report, no instruction writes one, and an unrecognised word's is made of the
word and its address. -/
theorem reportCarriesOpcodeAndAddress : Obligations.ReportCarriesOpcodeAndAddress := by
  intro s t r ht
  cases hwf : wellFormedWord (s.fetch s.pc) with
  | true =>
    obtain ⟨i, hi⟩ := (wellFormedWord_iff _).1 hwf
    obtain ⟨-, -, hreport, -⟩ := (keeps_of_exec ((tick_of_instr hi r).symm.trans ht)).env
    exact hreport
  | false =>
    obtain ⟨u, hu⟩ := decode_of_not_wellFormed hwf
    obtain rfl : (s.postFetch r).reportBadOpcode (s.fetch s.pc) s.pc = t :=
      Host.Outcome.next.inj ((tick_of_unrecognised hu r).symm.trans ht)
    rfl

end Sys2Proof.Machine
end

section
/-! The invariant (10_state.md R46): memory in canonical form and I at most 0x0FFF, kept by every instruction and event. -/

namespace Sys2Proof.Machine

/-- The invariant looks at memory and I only. -/
theorem State.Inv.congr {s t : State} (h : s.Inv) (hmem : t.mem = s.mem) (hi : t.i = s.i) : t.Inv :=
  ⟨hmem ▸ h.memWf, hi ▸ h.iBound⟩

/-- Memory stays canonical: only the two block stores write it. -/
theorem exec_keeps_wf {i : Instr} {s t : State} (h : exec i s = .next t) (hwf : s.mem.wf = true) :
    t.mem.wf = true := by
  cases hw : writesMem i with
  | false => rw [(keeps_of_exec h).mem hw]; exact hwf
  | true =>
    cases i with
    | ldB | storeRegs => cases h; exact State.wf_writeBytes hwf _ _ _
    | _ => cases hw

/-- I stays at most 0x0FFF: a 12-bit operand, a masked sum, or a glyph address of at most 0x50 + 5 * 255. -/
theorem exec_keeps_iBound {i : Instr} {s t : State} (h : exec i s = .next t) (hi : s.i.toNat ≤ 0x0FFF) :
    t.i.toNat ≤ 0x0FFF := by
  cases hw : writesI i with
  | false => rw [(keeps_of_exec h).index hw]; exact hi
  | true =>
    cases i with
    | ldI nnn =>
      cases h
      exact (toNat_zextAddr nnn).trans_le (Nat.le_of_lt_succ nnn.isLt)
    | addI x =>
      cases h
      exact (Nat.mod_le _ _).trans (Nat.le_of_lt_succ (Nat.mod_lt _ (by decide)))
    | ldF x =>
      cases h
      have hbyte := (s.getV x).isLt
      exact (toNat_glyphAddr (s.getV x)).trans_le (by omega)
    | _ => cases hw

theorem exec_keeps_inv {i : Instr} {s t : State} (h : exec i s = .next t) (hs : s.Inv) : t.Inv :=
  ⟨exec_keeps_wf h hs.memWf, exec_keeps_iBound h hs.iBound⟩

theorem tick_keeps_inv {r : Draw} {s t : State} (h : tick r s = .next t) (hs : s.Inv) : t.Inv := by
  cases hd : decode (s.fetch s.pc) with
  | instr i =>
    rw [tick_of_instr hd] at h
    exact exec_keeps_inv h (hs.congr rfl rfl)
  | unrecognised u =>
    rw [tick_of_unrecognised hd] at h
    cases h
    exact hs.congr rfl rfl

theorem Memory.wf_nil : Memory.wf [] = true := rfl

/-- A RESET establishes the invariant, whatever came before. -/
theorem resetWith_inv (rom : List Byte) : (State.resetWith rom).Inv :=
  ⟨Memory.wf_load rom 0x200 Memory.wf_nil, Nat.zero_le _⟩

theorem resetEvent_of_le {rom : List Byte} (h : rom.length ≤ romMax) : resetEvent rom = .next (State.resetWith rom) :=
  if_pos h

theorem resetEvent_of_gt {rom : List Byte} (h : romMax < rom.length) : resetEvent rom = .refused .romTooLong :=
  if_neg (Nat.not_le_of_lt h)

/-- A RESET that is not refused leads to the reset state with the ROM placed. -/
theorem eq_resetWith_of_resetEvent {rom : List Byte} {t : State} (h : resetEvent rom = .next t) :
    t = State.resetWith rom := by
  by_cases hlen : rom.length ≤ romMax
  · rw [resetEvent_of_le hlen] at h
    cases h
    rfl
  · rw [resetEvent_of_gt (Nat.lt_of_not_le hlen)] at h
    cases h

theorem applyEvent_keeps_inv {e : Event} {s t : State} (h : applyEvent e s = .next t) (hs : s.Inv) : t.Inv := by
  cases e with
  | reset rom => exact eq_resetWith_of_resetEvent h ▸ resetWith_inv rom
  | frameStart keys => cases h; exact hs.congr rfl rfl
  | tick r => exact tick_keeps_inv h hs
  | frameEnd => cases h; exact hs.congr rfl rfl

/-- The environment's bookkeeping is all that `advanceFrame` writes. -/
theorem State.advanceFrame_eq (s : State) : ∃ p f k, s.advanceFrame = s.withBookkeeping p f k := by
  unfold State.advanceFrame
  split <;> exact ⟨_, _, _, rfl⟩

/-- Settles O19: a step is one event, sent to a state that differs in the bookkeeping only, and every event keeps the
invariant. -/
theorem stepKeepsInvariant : Obligations.StepKeepsInvariant := by
  intro s t hs h
  obtain ⟨p, f, k, hadv⟩ := s.advanceFrame_eq
  have hstart : s.advanceFrame.Inv := hs.congr (by rw [hadv]; rfl) (by rw [hadv]; rfl)
  exact applyEvent_keeps_inv h hstart

/-- A list of events that is not stopped is its first event and then the rest. -/
theorem runEvents_cons_next {e : Event} {es : List Event} {s t : State} (h : runEvents (e :: es) s = .next t) :
    ∃ u, applyEvent e s = .next u ∧ runEvents es u = .next t := by
  unfold runEvents at h
  split at h
  · next u hu => exact ⟨u, hu, h⟩
  · cases h
  · cases h

/-- Settles O20, by induction on the list of events. -/
theorem eventSequencesKeepInvariant : Obligations.EventSequencesKeepInvariant := by
  intro es
  induction es with
  | nil => intro s t hs h; cases h; exact hs
  | cons e es ih =>
    intro s t hs h
    obtain ⟨u, hu, hrest⟩ := runEvents_cons_next h
    exact ih u t (applyEvent_keeps_inv hu hs) hrest

/-- Settles O18. -/
theorem resetMeetsInvariant : Obligations.ResetMeetsInvariant := ⟨Memory.wf_nil, Nat.zero_le _⟩

end Sys2Proof.Machine
end

section
/-! Lists of events, one after the other (00_scope.md R8, R9). -/

namespace Sys2Proof.Machine

theorem runEvents_cons {e : Event} {s t : State} (h : applyEvent e s = .next t) (es : List Event) :
    runEvents (e :: es) s = runEvents es t := by
  rw [runEvents, h]

theorem runEvents_append {es : List Event} {s t : State} (h : runEvents es s = .next t) (es' : List Event) :
    runEvents (es ++ es') s = runEvents es' t := by
  induction es generalizing s with
  | nil => cases h; rfl
  | cons e es ih =>
    obtain ⟨u, hu, hrest⟩ := runEvents_cons_next h
    rw [List.cons_append, runEvents_cons hu, ih hrest]

end Sys2Proof.Machine
end

section
/-! One step in each place of the frame (00_scope.md R9; log entry 1): the event that is due, sent to the state whose
bookkeeping has advanced. -/

namespace Sys2Proof.Machine

theorem step_of_frameStart {s : State} (h : s.phase = .frameStart) : step s = .next
    (State.frameStart { s with phase := .ticks Config.ticksPerFrame, frameNo := s.frameNo + 1 }
      (Config.keysIn s.frameNo)) := by
  simp only [step, State.nextEvent, State.advanceFrame, h]
  rfl

theorem step_of_tick {s : State} {n : Nat} (h : s.phase = .ticks (n + 1)) :
    step s = tick (Config.rndIn s.tickNo) { s with phase := .ticks n, tickNo := s.tickNo + 1 } := by
  simp only [step, State.nextEvent, State.advanceFrame, h]
  rfl

theorem step_of_frameEnd {s : State} (h : s.phase = .ticks 0) :
    step s = .next (State.frameEnd { s with phase := .frameStart }) := by
  simp only [step, State.nextEvent, State.advanceFrame, h]
  rfl

/-- Settles O10: the bookkeeping does not touch the word at PC, so the tick decodes it as the state before the step
would. -/
theorem stepRunsTheDecodedInstruction : Obligations.StepRunsTheDecodedInstruction := by
  refine fun s n hphase => ⟨fun i hi => ?_, fun why hwhy => ?_⟩
  · exact (step_of_tick hphase).trans (tick_of_instr (s := { s with phase := .ticks n, tickNo := s.tickNo + 1 }) hi _)
  · exact (step_of_tick hphase).trans
      (tick_of_unrecognised (s := { s with phase := .ticks n, tickNo := s.tickNo + 1 }) hwhy _)

/-- Settles O60. -/
theorem stepAtAFrameBoundary : Obligations.StepAtAFrameBoundary := by
  refine fun s => ⟨step_of_frameStart, fun hphase => ⟨_, step_of_frameEnd hphase, ?_, ?_, ?_, rfl⟩⟩
  · rw [State.frameEnd_tone, bne_iff_ne]
  · exact toNat_countdown s.dt
  · exact toNat_countdown s.st

end Sys2Proof.Machine
end

section
/-! A whole frame (00_scope.md R9; log entries 1 to 4): the ticks of a run of steps, held against the same ticks as
events, which do not see the bookkeeping. -/

namespace Sys2Proof.Machine

/-- `n` ticks, with the draws numbered from `k` on. -/
def ticksFrom (k n : Nat) : List Event := (List.range n).map fun j => Event.tick (Config.rndIn (k + j))

theorem ticksFrom_succ (k n : Nat) : ticksFrom k (n + 1) = .tick (Config.rndIn k) :: ticksFrom (k + 1) n := by
  simp [ticksFrom, List.range_succ_eq_map, Nat.add_assoc, Nat.add_comm 1]

/-- A tick writes neither KEY nor TONE. -/
theorem tick_key_tone {r : Draw} {s t : State} (h : tick r s = .next t) : t.key = s.key ∧ t.tone = s.tone := by
  cases hd : decode (s.fetch s.pc) with
  | instr i =>
    obtain ⟨hkey, htone, -⟩ := (keeps_of_exec ((tick_of_instr hd r).symm.trans h)).env
    exact ⟨hkey, htone⟩
  | unrecognised u =>
    rw [tick_of_unrecognised hd] at h
    cases h
    exact ⟨rfl, rfl⟩

/-- The `n` ticks left in a frame, as steps and as events: the steps end where the events do, in a state at which
FRAME_END is due, and go on from there. -/
theorem run_ticks (n : Nat) : ∀ (s : State) (f k : Nat), ∃ t, runEvents (ticksFrom k n) s = .next t ∧ t.key = s.key ∧
    ∀ m, Host.Core.run Sys2Proof.core (n + m) (s.withBookkeeping (.ticks n) f k) =
      Host.Core.run Sys2Proof.core m (t.withBookkeeping (.ticks 0) f (k + n)) := by
  induction n with
  | zero => exact fun s f k => ⟨s, rfl, rfl, fun m => by rw [Nat.zero_add]; rfl⟩
  | succ n ih =>
    intro s f k
    obtain ⟨u, hevent, hstep⟩ := tick_withBookkeeping (Config.rndIn k) s (.ticks n) f (k + 1)
    obtain ⟨t, hevents, hkey, hsteps⟩ := ih u f (k + 1)
    refine ⟨t, ?_, hkey.trans (tick_key_tone hevent).1, fun m => ?_⟩
    · rw [ticksFrom_succ, runEvents_cons (e := .tick _) hevent, hevents]
    · have hfirst : step (s.withBookkeeping (.ticks (n + 1)) f k) = .next (u.withBookkeeping (.ticks n) f (k + 1)) :=
        (step_of_tick rfl).trans hstep
      rw [Nat.add_right_comm, run_succ hfirst, hsteps, Nat.add_right_comm, Nat.add_assoc]

/-- Settles O11: the first step is FRAME_START, then come the ticks, and the last step is FRAME_END. -/
theorem wholeFrameFollowsTheContract : Obligations.WholeFrameFollowsTheContract := by
  intro s hphase
  obtain ⟨u, hevents, hkey, hsteps⟩ :=
    run_ticks Config.ticksPerFrame (s.frameStart (Config.keysIn s.frameNo)) (s.frameNo + 1) s.tickNo
  have hlast := run_succ (k := 0) (step_of_frameEnd
    (s := u.withBookkeeping (.ticks 0) (s.frameNo + 1) (s.tickNo + Config.ticksPerFrame)) rfl)
  refine ⟨_, u.frameEnd, (run_succ (step_of_frameStart hphase)).trans ((hsteps 1).trans hlast), ?_, rfl, hkey⟩
  rw [runEvents_cons (applyEvent_frameStart _ s)]
  exact runEvents_append hevents [.frameEnd]

end Sys2Proof.Machine
end

section
/-! A run of FRAME_ENDs (60_exceptions.md R211 to R213). -/

namespace Sys2Proof.Machine

theorem toNat_dt_frameEnds (k : Nat) (s : State) : (State.frameEnd^[k] s).dt.toNat = s.dt.toNat - k := by
  induction k with
  | zero => rfl
  | succ k ih => rw [Function.iterate_succ_apply', State.frameEnd_dt, toNat_countdown, ih, Nat.sub_sub]

/-- No number of FRAME_ENDs touches V, PC or KEY. -/
theorem frame_frameEnds (k : Nat) (s : State) : SameV s (State.frameEnd^[k] s) ∧ (State.frameEnd^[k] s).pc = s.pc ∧
    (State.frameEnd^[k] s).key = s.key := by
  induction k with
  | zero => exact ⟨fun _ => rfl, rfl, rfl⟩
  | succ k ih => rw [Function.iterate_succ_apply']; exact ih

/-- Settles O14. -/
theorem timersCountDownOncePerFrame : Obligations.TimersCountDownOncePerFrame := by
  refine fun s k => ⟨_, runEvents_frameEnds k s, toNat_dt_frameEnds k s, toNat_st_frameEnds k s, fun hk => ?_,
    frame_frameEnds k s⟩
  obtain ⟨j, rfl⟩ := Nat.exists_eq_succ_of_ne_zero hk.ne'
  exact tone_frameEnds_succ j s

end Sys2Proof.Machine
end

section
/-! RESET (70_reset_and_hazards.md R230, R233; 10_state.md R32, R33): what each byte of memory holds after it, and that
everything else is 0. -/

namespace Sys2Proof.Machine

/-- The font stands from 0x050 on. -/
theorem Memory.unlisted_font (k : Nat) : Memory.unlisted (0x050 + k) = font.getD k 0 := by
  rw [Memory.unlisted, fontBase, if_neg (by omega), Nat.add_sub_cancel_left]

/-- Outside the font's 80 cells there is nothing. -/
theorem Memory.unlisted_of_not_font {a : Nat} (h : ¬ (0x050 ≤ a ∧ a < 0x0A0)) : Memory.unlisted a = 0 := by
  unfold Memory.unlisted fontBase
  split
  · rfl
  · have hlen : font.length = 80 := rfl
    exact List.getD_eq_default _ _ (by omega)

theorem maskAddr_of_lt {a : Nat} (h : a < 4096) : maskAddr a = a := Nat.mod_eq_of_lt h

/-- Every byte after a RESET: the ROM's where it was placed, the reset contents elsewhere. -/
theorem readByte_resetWith {rom : List Byte} (hlen : rom.length ≤ 3584) {a : Nat} (ha : a < 4096) :
    (State.resetWith rom).readByte a =
      if h : 0x200 ≤ a ∧ a < 0x200 + rom.length then rom[a - 0x200]'(by omega) else Memory.unlisted a := by
  rw [State.readByte, maskAddr_of_lt ha]
  exact Memory.read_load rom a Memory.wf_nil (by omega)

/-- Settles O16: the ROM, the font below it, and zeros. -/
theorem resetPlacesTheProgram : Obligations.ResetPlacesTheProgram := by
  refine fun rom s => ⟨fun hlen => ⟨_, resetEvent_of_le hlen, rfl, fun k hk => ?_, fun k hk => ?_,
    fun a ha hfont hrom => ?_⟩, resetEvent_of_gt⟩
  · rw [readByte_resetWith hlen (by omega), dif_pos (by omega)]
    simp only [Nat.add_sub_cancel_left]
  · rw [readByte_resetWith hlen (by omega), dif_neg (by omega), Memory.unlisted_font]
  · rw [readByte_resetWith hlen ha, dif_neg hrom, Memory.unlisted_of_not_font hfont]

theorem FrameBuffer.cell_clear (px py : Nat) : FrameBuffer.cell FrameBuffer.clear px py = false := by
  unfold FrameBuffer.cell FrameBuffer.clear
  split
  · simp
  · rfl

/-- Every cell of a cleared framebuffer is 0, also by the flat number. -/
theorem FrameBuffer.flat_clear (j : Nat) : FrameBuffer.flat FrameBuffer.clear j = false :=
  FrameBuffer.cell_clear (j % 64) (j / 64)

/-- Settles O17. -/
theorem resetClearsTheRest : Obligations.ResetClearsTheRest := by
  refine fun rom s hlen => ⟨_, resetEvent_of_le hlen, fun r => ?_, rfl, rfl, fun j _ => FrameBuffer.flat_clear j,
    fun k hk => ?_, rfl, rfl, rfl, rfl, rfl⟩
  · exact Vector.getElem_replicate r.isLt
  · exact Vector.getElem_replicate hk

end Sys2Proof.Machine
end

section
/-! RET, JP V0 and the register skips (40_control_flow.md R100, R101, R104, R107, R108). -/

namespace Sys2Proof.Machine

/-- What an instruction that pops does to the stack: SP one lower, and PC the top entry. -/
theorem State.popState_setPC_frame (s : State) : SameV s (s.popState.setPC s.popValue) ∧
    SameMem s (s.popState.setPC s.popValue) ∧ SameFB s (s.popState.setPC s.popValue) ∧
    SameI s (s.popState.setPC s.popValue) ∧ SameTimers s (s.popState.setPC s.popValue) ∧
    SameEnv s (s.popState.setPC s.popValue) :=
  frame_of_stack_and_pc (cells := s.stack) (depth := s.popState.sp) (target := s.popValue) rfl

/-- Settles O29: on an empty stack the pop returns 0 and leaves SP, otherwise it returns STACK[SP - 1]. -/
theorem retPopsIntoPc : Obligations.RetPopsIntoPc := by
  refine ⟨fun k => decode_group0 k 0xEE#8, fun s => ⟨_, exec_ret s, fun hempty => ⟨?_, ?_⟩,
    fun k hk hsp => ⟨?_, ?_⟩, rfl, s.popState_setPC_frame⟩⟩
  · exact State.popValue_empty hempty
  · rw [State.setPC_sp, State.popState_sp, hempty]
  · exact State.popValue_succ hk hsp
  · rw [State.setPC_sp, State.popState_sp, hsp, Nat.add_sub_cancel]

/-- A pop right after a push that was not dropped returns the word pushed. -/
theorem State.popValue_push {s : State} (h : s.sp.val < 16) (w : Word) : (s.push w).popValue = w := by
  obtain ⟨hsp, hcell, -⟩ := State.push_stores h rfl w
  rw [State.popValue_succ h hsp, hcell]

/-- It leaves SP as it was before the push. -/
theorem State.popState_push_sp {s : State} (h : s.sp.val < 16) (w : Word) : (s.push w).popState.sp = s.sp := by
  obtain ⟨hsp, -⟩ := State.push_stores h rfl w
  apply Fin.ext
  rw [State.popState_sp, hsp, Nat.add_sub_cancel]

/-- Settles O32: the jump between push and pop does not touch the stack. -/
theorem callThenRetReturns : Obligations.CallThenRetReturns := by
  refine fun nnn s => ⟨_, _, exec_call nnn s, exec_ret _, fun hlt => ⟨?_, ?_⟩, fun hfull => ⟨?_, ?_⟩, ?_⟩
  · exact State.popValue_push hlt s.pc
  · exact State.popState_push_sp hlt s.pc
  · rw [State.push_of_full hfull]
    exact State.popValue_succ (by decide) hfull
  · rw [State.push_of_full hfull, State.setPC_sp, State.popState_sp, State.setPC_sp, hfull]
  · exact frame_of_stack_and_pc (cells := s.pushCells s.pc) (depth := (s.push s.pc).popState.sp)
      (target := (s.push s.pc).popValue) rfl

/-- Settles O33: a 12-bit and an 8-bit operand do not overflow 16 bits. -/
theorem jpV0AddsWithoutMask : Obligations.JpV0AddsWithoutMask := by
  refine fun nnn => ⟨decode_encode (.jpV0 nnn), fun s => ⟨_, exec_jpV0 nnn s, ?_, sameButPC_setPC s _⟩⟩
  have hnnn := nnn.isLt
  have hv := (s.getV 0).isLt
  rw [State.setPC_pc, BitVec.toNat_add, toNat_zextAddr, toNat_zextByte]
  omega

theorem decode_seReg (x y n : Nibble) : decode (0x5#4 ++ x ++ y ++ n) = .instr (.seReg x y) := by
  simp [decode]

theorem decode_sneReg (x y n : Nibble) : decode (0x9#4 ++ x ++ y ++ n) = .instr (.sneReg x y) := by
  simp [decode]

/-- Settles O35: the decoder takes the low nibble of no such word, and each instruction is one skip. -/
theorem registerSkips : Obligations.RegisterSkips := by
  refine fun x y => ⟨fun n => ⟨decode_seReg x y n, decode_sneReg x y n⟩, fun s => ⟨?_, ?_⟩⟩
  · exact ⟨_, exec_seReg x y s, State.skipIf_beq_pc s _ _, sameButPC_skipIf s _⟩
  · exact ⟨_, exec_sneReg x y s, State.skipIf_bne_pc s _ _, sameButPC_skipIf s _⟩

/-- Settles O48. -/
theorem keyWaitRewindsOrPasses : Obligations.KeyWaitRewindsOrPasses := fun x =>
  ⟨decode_encode (.ldVxK x), fun s => ⟨_, exec_ldVxK x s, rfl, sameButPC_setPC s _⟩⟩

end Sys2Proof.Machine
end

section
/-! The ALU (41_alu.md R120, R124 to R132): the logic operations write one register; the arithmetic ones write a result
and then a flag. -/

namespace Sys2Proof.Machine

/-- Settles O37: each instruction is one write of V[x], so VF is kept unless it is V[x]. -/
theorem logicOperationsKeepVF : Obligations.LogicOperationsKeepVF := by
  refine fun x y => ⟨decode_encode (.orReg x y), decode_encode (.andReg x y), decode_encode (.xorReg x y),
    fun s => ⟨?_, ?_, ?_⟩⟩
  · refine ⟨_, exec_orReg x y s, fun b => ?_, sameBut_setV s x _⟩
    rw [State.getV_setV_same, BitVec.getLsbD_or]
  · refine ⟨_, exec_andReg x y s, fun b => ?_, sameBut_setV s x _⟩
    rw [State.getV_setV_same, BitVec.getLsbD_and]
  · refine ⟨_, exec_xorReg x y s, fun b => ?_, sameBut_setV s x _⟩
    rw [State.getV_setV_same, BitVec.getLsbD_xor]

/-! ### A result and a flag -/

/-- The flag is written last, so VF holds it, also where the result went to VF. -/
@[simp] theorem State.getV_setResultFlag_vf (s : State) (x : Reg) (val : Byte) (f : Bool) :
    (s.setResultFlag x val f).getV vf = flagByte f := by
  rw [State.getV_setResultFlag, if_pos rfl]

theorem State.getV_setResultFlag_same (s : State) {x : Reg} (hx : x ≠ vf) (val : Byte) (f : Bool) :
    (s.setResultFlag x val f).getV x = val := by
  rw [State.getV_setResultFlag, if_neg hx, if_pos rfl]

/-- Nothing but V[x] and VF is written. -/
theorem sameBut_setResultFlag (s : State) (x : Reg) (val : Byte) (f : Bool) :
    SameBut [x, vf] s (s.setResultFlag x val f) := by
  have hregs : SameVBut [x, vf] s (s.setResultFlag x val f) := fun r hr => by
    rw [List.mem_cons, List.mem_singleton, not_or] at hr
    rw [State.getV_setResultFlag, if_neg hr.2, if_neg hr.1]
  exact ⟨hregs, rfl, fun _ => rfl, fun _ _ _ _ => rfl, ⟨rfl, rfl⟩, rfl, ⟨rfl, rfl⟩, rfl, rfl, rfl, rfl, rfl, rfl, rfl⟩

theorem flagByte_decide (p : Prop) [Decidable p] : flagByte (decide p) = if p then 1 else 0 := by
  simp [flagByte]

theorem toNat_sub_byte (a b : Byte) : (a - b).toNat = (a.toNat + 256 - b.toNat) % 256 := by
  have ha := a.isLt
  have hb := b.isLt
  rw [BitVec.toNat_sub]
  omega

theorem toNat_shr_byte (a : Byte) : (a >>> 1).toNat = a.toNat / 2 := by
  rw [BitVec.toNat_ushiftRight, Nat.shiftRight_eq_div_pow, Nat.pow_one]

theorem toNat_shl_byte (a : Byte) : (a <<< 1).toNat = a.toNat * 2 % 256 := by
  rw [BitVec.toNat_shiftLeft, Nat.shiftLeft_eq, Nat.pow_one]

/-- Settles O38. -/
theorem addRegisterSetsCarry : Obligations.AddRegisterSetsCarry := by
  refine fun x y => ⟨decode_encode (.addReg x y), fun s => ⟨_, exec_addReg x y s, fun hx => ?_, ?_,
    sameBut_setResultFlag s x _ _⟩⟩
  · rw [State.getV_setResultFlag_same s hx]
    exact BitVec.toNat_add _ _
  · rw [State.getV_setResultFlag_vf]
    exact flagByte_decide _

/-- Settles O39: the two instructions are one subtraction with its operands exchanged. -/
theorem subtractionsSetNotBorrow : Obligations.SubtractionsSetNotBorrow := by
  refine fun x y => ⟨decode_encode (.subReg x y), decode_encode (.subn x y), fun s => ⟨?_, ?_⟩⟩
  · refine ⟨_, exec_subReg x y s, fun hx => ?_, ?_, sameBut_setResultFlag s x _ _⟩
    · rw [State.getV_setResultFlag_same s hx, toNat_sub_byte]
    · rw [State.getV_setResultFlag_vf]
      exact flagByte_decide _
  · refine ⟨_, exec_subn x y s, fun hx => ?_, ?_, sameBut_setResultFlag s x _ _⟩
    · rw [State.getV_setResultFlag_same s hx, toNat_sub_byte]
    · rw [State.getV_setResultFlag_vf]
      exact flagByte_decide _

theorem decode_shr (x y : Nibble) : decode (0x8#4 ++ x ++ y ++ 0x6#4) = .instr (.shr x) := decode_group8 x y 0x6#4

theorem decode_shl (x y : Nibble) : decode (0x8#4 ++ x ++ y ++ 0xE#4) = .instr (.shl x) := decode_group8 x y 0xE#4

/-- Settles O40: the decoder takes y of neither word; the flag is the bit that leaves the byte. -/
theorem shiftsSetTheBitShiftedOut : Obligations.ShiftsSetTheBitShiftedOut := by
  refine fun x => ⟨fun y => ⟨decode_shr x y, decode_shl x y⟩, fun s => ⟨?_, ?_⟩⟩
  · refine ⟨_, exec_shr x s, fun hx => ?_, State.getV_setResultFlag_vf s x _ _, sameBut_setResultFlag s x _ _⟩
    rw [State.getV_setResultFlag_same s hx, toNat_shr_byte]
  · refine ⟨_, exec_shl x s, fun hx => ?_, State.getV_setResultFlag_vf s x _ _, sameBut_setResultFlag s x _ _⟩
    rw [State.getV_setResultFlag_same s hx, toNat_shl_byte]

/-! ### Nothing is lost between the result and the flag (R132) -/

theorem toNat_flagByte_le (f : Bool) : (flagByte f).toNat ≤ 1 := by cases f <;> decide

theorem toNat_flagByte_decide (p : Prop) [Decidable p] : (flagByte (decide p)).toNat = if p then 1 else 0 := by
  simp [toNat_flagByte]

theorem add_exact (a b : Byte) : a.toNat + b.toNat = 256 * (flagByte (carry a b)).toNat + (a + b).toNat := by
  have ha := a.isLt
  have hb := b.isLt
  rw [carry, toNat_flagByte_decide, BitVec.toNat_add]
  split <;> omega

theorem sub_exact (a b : Byte) :
    a.toNat + 256 = b.toNat + 256 * (flagByte (notBorrow a b)).toNat + (a - b).toNat := by
  have ha := a.isLt
  have hb := b.isLt
  rw [notBorrow, toNat_flagByte_decide, toNat_sub_byte]
  split <;> omega

theorem lowBit_eq (a : Byte) : lowBit a = decide (a.toNat % 2 = 1) := Nat.testBit_zero _

theorem highBit_eq (a : Byte) : highBit a = decide (128 ≤ a.toNat) := BitVec.msb_eq_decide a

theorem shr_exact (a : Byte) : a.toNat = 2 * (a >>> 1).toNat + (flagByte (lowBit a)).toNat := by
  rw [lowBit_eq, toNat_flagByte_decide, toNat_shr_byte]
  split <;> omega

theorem shl_exact (a : Byte) : 2 * a.toNat = 256 * (flagByte (highBit a)).toNat + (a <<< 1).toNat := by
  have ha := a.isLt
  rw [highBit_eq, toNat_flagByte_decide, toNat_shl_byte]
  split <;> omega

/-- A law between the result and the flag is a law between V[x] and VF, as long as x is not 15. -/
theorem State.setResultFlag_law (s : State) (x : Reg) {val : Byte} {f : Bool} {law : Nat → Nat → Prop}
    (h : law (flagByte f).toNat val.toNat) : ((s.setResultFlag x val f).getV vf).toNat ≤ 1 ∧
      (x ≠ vf → law ((s.setResultFlag x val f).getV vf).toNat ((s.setResultFlag x val f).getV x).toNat) := by
  rw [State.getV_setResultFlag_vf]
  refine ⟨toNat_flagByte_le f, fun hx => ?_⟩
  rw [State.getV_setResultFlag_same s hx]
  exact h

/-- Settles O41. -/
theorem aluResultAndFlagAreExact : Obligations.AluResultAndFlagAreExact := by
  refine fun x y s => ⟨⟨_, exec_addReg x y s, ?_⟩, ⟨_, exec_subReg x y s, ?_⟩, ⟨_, exec_subn x y s, ?_⟩,
    ⟨_, exec_shr x s, ?_⟩, ⟨_, exec_shl x s, ?_⟩⟩
  · exact s.setResultFlag_law x (law := fun f v => _ = 256 * f + v) (add_exact (s.getV x) (s.getV y))
  · exact s.setResultFlag_law x (law := fun f v => _ = _ + 256 * f + v) (sub_exact (s.getV x) (s.getV y))
  · exact s.setResultFlag_law x (law := fun f v => _ = _ + 256 * f + v) (sub_exact (s.getV y) (s.getV x))
  · exact s.setResultFlag_law x (law := fun f v => _ = 2 * v + f) (shr_exact (s.getV x))
  · exact s.setResultFlag_law x (law := fun f v => _ = 256 * f + v) (shl_exact (s.getV x))

end Sys2Proof.Machine
end

section
/-! RND with a zero immediate and CLS (42_random.md R142, 43_display.md R145). -/

namespace Sys2Proof.Machine

theorem rndValue_zero (r : Draw) : rndValue r 0 = 0 := if_pos rfl

/-- Settles O43. -/
theorem rndZeroImmediateWritesZero : Obligations.RndZeroImmediateWritesZero := by
  refine fun x s => ⟨_, exec_rnd x 0 s, ?_, sameBut_setV s x _⟩
  rw [State.getV_setV_same, rndValue_zero]

/-- Settles O44. -/
theorem clsClearsTheFramebuffer : Obligations.ClsClearsTheFramebuffer :=
  ⟨fun k => decode_group0 k 0xE0#8, fun s => ⟨_, exec_cls s, fun j _ => FrameBuffer.flat_clear j, rfl, fun _ => rfl,
    fun _ => rfl, rfl, ⟨rfl, rfl⟩, ⟨rfl, rfl⟩, rfl, rfl, rfl, rfl, rfl, rfl, rfl⟩⟩

end Sys2Proof.Machine
end

section
/-! The address register (45_timers_index_memory.md R174, R175). -/

namespace Sys2Proof.Machine

/-- Settles O51. -/
theorem ldFPointsAtTheGlyph : Obligations.LdFPointsAtTheGlyph := fun x =>
  ⟨decode_encode (.ldF x), fun s => ⟨_, exec_ldF x s, toNat_glyphAddr (s.getV x), frame_setI s _⟩⟩

/-- A flag write leaves the other registers. -/
theorem sameVBut_setFlag {s t : State} (h : SameV s t) (f : Bool) : SameVBut [vf] s (t.setFlag f) := fun r hr => by
  rw [State.getV_setFlag, if_neg (List.ne_of_not_mem_cons hr)]
  exact h r

/-- Settles O53: I takes the sum modulo 4096, VF its overflow. -/
theorem addIMasksAndFlags : Obligations.AddIMasksAndFlags := by
  refine fun x => ⟨decode_encode (.addI x), fun s => ⟨_, exec_addI x s, ?_, ?_, sameVBut_setFlag (fun _ => rfl) _, rfl,
    fun _ => rfl, fun _ _ _ _ => rfl, ⟨rfl, rfl⟩, ⟨rfl, rfl⟩, rfl, rfl, rfl, rfl, rfl, rfl, rfl⟩⟩
  · rw [State.setFlag_i, State.setI_i, BitVec.toNat_ofNat]
    omega
  · rw [State.getV_setFlag, if_pos rfl]
    exact flagByte_decide _

end Sys2Proof.Machine
end

section
/-! The block transfers Fx55 and Fx65 (45_timers_index_memory.md R177 to R179; 20_memory.md R52, 92_eei_decisions.md D22):
what a store puts where, what a load takes from there, and that a fetch sees a store at once. -/

namespace Sys2Proof.Machine

/-- Every cell of the block that LD [I], Vx writes holds its register. -/
theorem State.readByte_storeRegs {s : State} (h : s.mem.wf = true) {x r : Reg} (hr : r.toNat ≤ x.toNat) :
    (s.writeBytes (s.effAddr 0) (x.toNat + 1) s.regAt).readByte (s.effAddr r.toNat) = s.getV r := by
  have hx := x.isLt
  rw [← s.effAddr_zero_add r.toNat, State.readByte_writeBytes_inside h (by omega) (Nat.lt_add_one_of_le hr),
    regAt_toNat]

/-- Settles O55. -/
theorem storeRegsStoresTheBlock : Obligations.StoreRegsStoresTheBlock := by
  refine fun x => ⟨decode_encode (.storeRegs x), fun s hwf => ⟨_, exec_storeRegs x s,
    fun r hr => State.readByte_storeRegs hwf hr, fun a ha => ?_, frame_writeBytes s _ _ _⟩⟩
  exact State.readByte_writeBytes_outside hwf fun k hk => ha k (Nat.le_of_lt_succ hk)

/-- A register up to x after LD Vx, [I]. -/
theorem State.getV_loadRegs (s : State) {x r : Reg} (hr : r.toNat ≤ x.toNat) :
    (s.setVs (x.toNat + 1) s.element).getV r = s.readByte (s.effAddr r.toNat) := by
  rw [State.getV_setVs s x.isLt, if_pos (Nat.lt_succ_of_le hr), State.element]

/-- Settles O56. -/
theorem loadRegsLoadsTheBlock : Obligations.LoadRegsLoadsTheBlock := by
  refine fun x => ⟨decode_encode (.loadRegs x), fun s => ⟨_, exec_loadRegs x s, fun r hr => s.getV_loadRegs hr,
    fun r hr => ?_, rfl, fun _ => rfl, fun _ _ _ _ => rfl, ⟨rfl, rfl⟩, rfl, ⟨rfl, rfl⟩, rfl, rfl, rfl, rfl, rfl, rfl,
    rfl⟩⟩
  rw [State.getV_setVs s x.isLt, if_neg (by omega)]

/-- Settles O57: the load reads the cells of the store, and neither moves I. -/
theorem storeThenLoadRestores : Obligations.StoreThenLoadRestores := by
  refine fun x s between hwf => ⟨_, _, exec_storeRegs x s, exec_loadRegs x _, fun r hr => ?_⟩
  rw [State.getV_loadRegs _ hr]
  exact State.readByte_storeRegs hwf hr

/-- A byte in memory is the high byte of a fetch at its address and the low byte of a fetch one below, modulo 4096. -/
theorem State.fetch_bytes_of_readByte {t : State} {b : Nat} {val : Byte} (h : t.readByte b = val) (a : Word) :
    (maskAddr a.toNat = maskAddr b → hiByte (t.fetch a) = val) ∧
    (maskAddr (a.toNat + 1) = maskAddr b → loByte (t.fetch a) = val) := by
  refine ⟨fun hmask => ?_, fun hmask => ?_⟩
  · rw [State.hiByte_fetch, State.readByte_congr hmask, h]
  · rw [State.loByte_fetch, State.readByte_congr hmask, h]

/-- The digits of R176 by one formula. -/
theorem toNat_bcdDigit_eq (val : Byte) {k : Nat} (hk : k < 3) :
    (bcdDigit val k).toNat = val.toNat / 10 ^ (2 - k) % 10 := by
  have hval := val.isLt
  obtain ⟨hundreds, tens, ones⟩ := toNat_bcdDigit val
  interval_cases k
  · rw [hundreds]; omega
  · rw [tens]; rfl
  · rw [ones]; simp

/-- Settles O58. -/
theorem storedBytesAreFetchedNext : Obligations.StoredBytesAreFetchedNext := by
  refine fun x s hwf => ⟨⟨_, exec_storeRegs x s, fun r a hr => ?_⟩, ⟨_, exec_ldB x s, fun k a hk => ?_⟩⟩
  · exact State.fetch_bytes_of_readByte (State.readByte_storeRegs hwf hr) a
  · obtain ⟨hhi, hlo⟩ := State.fetch_bytes_of_readByte (State.readByte_bcd hwf (s.getV x) hk) a
    rw [← toNat_bcdDigit_eq (s.getV x) hk]
    exact ⟨fun hmask => congrArg BitVec.toNat (hhi hmask), fun hmask => congrArg BitVec.toNat (hlo hmask)⟩

end Sys2Proof.Machine
end

section
/-! DRW (43_display.md R146 to R149, R151): the framebuffer and the collision flag in terms of the sprite's cells, then one
draw and two. -/

namespace Sys2Proof.Machine

/-- Exactly the cells under a set sprite bit are inverted. -/
theorem State.cell_drawn (s : State) (x y : Reg) (n : Nibble) {px py : Nat} (hx : px < 64) (hy : py < 32) :
    FrameBuffer.cell (s.drawn x y n).fb px py = (FrameBuffer.cell s.fb px py ^^ drwBit s x y n px py) :=
  drawSprite_cell s.element n.toNat _ _ ⟨s.fb, false⟩ px py (Nat.le_of_lt_succ hx) (Nat.le_of_lt_succ hy)

/-- A collision is a lit cell of the framebuffer under a set sprite bit. -/
theorem State.drawn_hit_iff (s : State) (x y : Reg) (n : Nibble) : (s.drawn x y n).hit = true ↔
    ∃ px py : Nat, px < 64 ∧ py < 32 ∧ drwBit s x y n px py = true ∧ FrameBuffer.cell s.fb px py = true := by
  have h := drawSprite_hit s.element n.toNat ((s.getV x).toNat % 64) ((s.getV y).toNat % 32) ⟨s.fb, false⟩
  rw [or_iff_right Bool.false_ne_true] at h
  simp only [Nat.lt_succ_iff]
  exact h

/-- VF after DRW is the collision. -/
theorem State.getV_vf_drw (s : State) (x y : Reg) (n : Nibble) :
    ((s.setFB (s.drawn x y n).fb).setFlag (s.drawn x y n).hit).getV vf = flagByte (s.drawn x y n).hit := by
  rw [State.getV_setFlag, if_pos rfl]

theorem flagByte_eq_one_iff (f : Bool) : flagByte f = 1 ↔ f = true := by cases f <;> decide

theorem flagByte_eq_zero_iff (f : Bool) : flagByte f = 0 ↔ f = false := by cases f <;> decide

/-- Settles O45. -/
theorem drwInvertsTheSpriteCells : Obligations.DrwInvertsTheSpriteCells := by
  refine fun x y n => ⟨decode_encode (.drw x y n), fun s => ⟨_, exec_drw x y n s,
    fun px py hx hy => s.cell_drawn x y n hx hy, fun hlit => ?_, fun hdark => ?_, sameVBut_setFlag (fun _ => rfl) _,
    rfl, fun _ => rfl, rfl, ⟨rfl, rfl⟩, ⟨rfl, rfl⟩, rfl, rfl, rfl, rfl, rfl, rfl, rfl⟩⟩
  · rw [State.getV_vf_drw, flagByte_eq_one_iff]
    exact (s.drawn_hit_iff x y n).2 hlit
  · rw [State.getV_vf_drw, flagByte_eq_zero_iff, Bool.eq_false_iff, ne_eq, State.drawn_hit_iff]
    rintro ⟨px, py, hx, hy, hbit, hcell⟩
    rw [hdark px py hx hy hbit] at hcell
    exact Bool.false_ne_true hcell

/-- The sprite of a DRW depends on memory, I and the two registers only: another framebuffer and another VF do not
change it. -/
theorem drwBit_setFB_setFlag {x y : Reg} (hx : x ≠ vf) (hy : y ≠ vf) (n : Nibble) (s : State) (fb : FrameBuffer)
    (f : Bool) : drwBit ((s.setFB fb).setFlag f) x y n = drwBit s x y n := by
  unfold drwBit
  rw [State.getV_setFlag, State.getV_setFlag, if_neg hx, if_neg hy]
  rfl

/-- A draw whose operands are not VF: the cells of the sprite are inverted, and a second draw has the same sprite. -/
theorem exec_drw_of_ne_vf {x y : Reg} (hx : x ≠ vf) (hy : y ≠ vf) (n : Nibble) (s : State) :
    ∃ t, exec (.drw x y n) s = .next t ∧ drwBit t x y n = drwBit s x y n ∧ ∀ px py : Nat, px < 64 → py < 32 →
      FrameBuffer.cell t.fb px py = (FrameBuffer.cell s.fb px py ^^ drwBit s x y n px py) :=
  ⟨_, exec_drw x y n s, drwBit_setFB_setFlag hx hy n s _ _, fun _ _ hpx hpy => s.cell_drawn x y n hpx hpy⟩

/-- Settles O46: the second draw inverts the same cells as the first, so a cell the sprite sets is lit before it exactly
if it was dark before the first. -/
theorem drwTwiceRestoresTheFramebuffer : Obligations.DrwTwiceRestoresTheFramebuffer := by
  intro x y n s hx hy
  obtain ⟨t, ht, hbit, hcell⟩ := exec_drw_of_ne_vf hx hy n s
  refine ⟨t, _, ht, exec_drw x y n t, fun px py hpx hpy => ?_, ?_⟩
  · rw [State.setFlag_fb, State.setFB_fb, State.cell_drawn t x y n hpx hpy, hbit, hcell px py hpx hpy, Bool.xor_assoc,
      Bool.xor_self, Bool.xor_false]
  · rw [State.getV_vf_drw, flagByte_eq_one_iff, State.drawn_hit_iff, hbit]
    refine exists_congr fun px => exists_congr fun py => and_congr_right fun hpx => and_congr_right fun hpy =>
      and_congr_right fun hset => ?_
    rw [hcell px py hpx hpy, hset, Bool.xor_true, Bool.not_eq_true']

end Sys2Proof.Machine
end

section
/-! The key-wait over any number of ticks (44_keypad.md R163, R164; 92_eei_decisions.md D11). -/

namespace Sys2Proof.Machine

/-- A tick on a key-wait whose key is up comes back to the same PC: all it leaves is its draw, and no report. -/
theorem tick_keyWait {s : State} {x : Reg} (hd : decode (s.fetch s.pc) = .instr (.ldVxK x))
    (hup : s.key.getLsbD ((s.getV x).toNat % 16) = false) (r : Draw) :
    tick r s = .next { s with rndIn := r, report := none } := by
  have hkey : (s.postFetch r).keyDown ((s.postFetch r).getV x) = false := hup
  rw [tick_of_instr hd, exec_ldVxK, hkey, if_neg Bool.false_ne_true, State.postFetch_pc, BitVec.add_sub_cancel]
  rfl

/-- Settles O49, by induction on the draws: the state after each tick is the first one but for the draw and the report,
which neither hypothesis looks at. -/
theorem keyWaitSpinsWhileTheKeyIsUp : Obligations.KeyWaitSpinsWhileTheKeyIsUp := by
  intro s x draws hd hup
  induction draws generalizing s with
  | nil =>
    exact ⟨s, rfl, rfl, fun _ => rfl, fun _ => rfl, fun _ _ _ _ => rfl, ⟨rfl, rfl⟩, rfl, ⟨rfl, rfl⟩, rfl, rfl⟩
  | cons r draws ih =>
    obtain ⟨t, hrun, hframe⟩ := ih { s with rndIn := r, report := none } hd hup
    exact ⟨t, (runEvents_cons (e := .tick r) (tick_keyWait hd hup r) _).trans hrun, hframe⟩

end Sys2Proof.Machine
end

section
/-! The end of a run (70_reset_and_hazards.md R246; 92_eei_decisions.md D20): once a jump to itself stands at PC, the
program's state is frozen. -/

namespace Sys2Proof.Machine

/-- The program's own state is the same: V, I, PC, memory, framebuffer and stack. -/
structure Frozen (s t : State) : Prop where
  v : t.v = s.v
  i : t.i = s.i
  pc : t.pc = s.pc
  mem : t.mem = s.mem
  fb : t.fb = s.fb
  sp : t.sp = s.sp
  stack : t.stack = s.stack

theorem Frozen.refl (s : State) : Frozen s s := ⟨rfl, rfl, rfl, rfl, rfl, rfl, rfl⟩

theorem Frozen.trans {s t u : State} (h : Frozen s t) (h' : Frozen t u) : Frozen s u :=
  ⟨h'.v.trans h.v, h'.i.trans h.i, h'.pc.trans h.pc, h'.mem.trans h.mem, h'.fb.trans h.fb,
    h'.sp.trans h.sp, h'.stack.trans h.stack⟩

/-- A jump to itself stays one. -/
theorem State.ended.of_frozen {s t : State} (h : s.ended) (hf : Frozen s t) : t.ended := by
  have hfetch : t.fetch t.pc = s.fetch s.pc := by
    rw [State.fetch, State.fetch, sameMem_of_mem_eq hf.mem, sameMem_of_mem_eq hf.mem, hf.pc]
  obtain ⟨hpc, hword⟩ := h
  exact ⟨hf.pc ▸ hpc, by rw [hfetch, hword, hf.pc]⟩

theorem zextAddr_setWidth {w : Word} (h : w.toNat ≤ 0x0FFF) : zextAddr (w.setWidth 12) = w := by
  apply BitVec.eq_of_toNat_eq
  rw [toNat_zextAddr, BitVec.toNat_setWidth]
  exact Nat.mod_eq_of_lt (Nat.lt_succ_of_le h)

/-- The word of R246 is the encoding of a jump to that address. -/
theorem jp_word_eq_encode {w : Word} (h : w.toNat ≤ 0x0FFF) : 0x1000#16 ||| w = encode (.jp (w.setWidth 12)) := by
  apply BitVec.eq_of_toNat_eq
  have hor : (0x1000 ||| w.toNat) = 0x1000 + w.toNat :=
    (Nat.two_pow_add_eq_or_of_lt (i := 12) (Nat.lt_succ_of_le h) 1).symm
  change _ = (0x1#4 ++ w.setWidth 12).toNat
  rw [toNat_cat, BitVec.toNat_setWidth, BitVec.toNat_or]
  change (0x1000 ||| w.toNat) = 1 * 2 ^ 12 + w.toNat % 2 ^ 12
  omega

/-- The tick jumps to where it came from. -/
theorem tick_of_ended {s : State} (h : s.ended) (r : Draw) : tick r s = .next ((s.postFetch r).setPC s.pc) := by
  obtain ⟨hpc, hword⟩ := h
  have hd : decode (s.fetch s.pc) = .instr (.jp (s.pc.setWidth 12)) := by
    rw [hword, jp_word_eq_encode hpc, decode_encode]
  rw [tick_of_instr hd, exec_jp, zextAddr_setWidth hpc]

/-- No event but RESET touches the program's state any more. -/
theorem applyEvent_of_ended {e : Event} {s : State} (h : s.ended) (hne : ∀ rom, e ≠ .reset rom) :
    ∃ t, applyEvent e s = .next t ∧ Frozen s t := by
  cases e with
  | reset rom => exact absurd rfl (hne rom)
  | frameStart keys => exact ⟨_, applyEvent_frameStart keys s, rfl, rfl, rfl, rfl, rfl, rfl, rfl⟩
  | tick r => exact ⟨_, tick_of_ended h r, rfl, rfl, rfl, rfl, rfl, rfl, rfl⟩
  | frameEnd => exact ⟨_, applyEvent_frameEnd s, rfl, rfl, rfl, rfl, rfl, rfl, rfl⟩

theorem runEvents_of_ended {es : List Event} {s : State} (h : s.ended) (hne : ∀ rom, Event.reset rom ∉ es) :
    ∃ t, runEvents es s = .next t ∧ Frozen s t := by
  induction es generalizing s with
  | nil => exact ⟨s, rfl, Frozen.refl s⟩
  | cons e es ih =>
    obtain ⟨t, ht, hfirst⟩ := applyEvent_of_ended (e := e) h fun rom he =>
      hne rom (he ▸ List.mem_cons_self)
    obtain ⟨u, hu, hrest⟩ := ih (h.of_frozen hfirst) fun rom hmem => hne rom (List.mem_cons_of_mem e hmem)
    exact ⟨u, (runEvents_cons ht es).trans hu, hfirst.trans hrest⟩

/-- Settles O59. -/
theorem jumpToSelfFreezesTheProgram : Obligations.JumpToSelfFreezesTheProgram := by
  intro es s h hne
  obtain ⟨t, ht, hf⟩ := runEvents_of_ended h hne
  have hregs : SameV s t := fun r => by rw [State.getV, State.getV, hf.v]
  exact ⟨t, ht, h.of_frozen hf, hf.pc, hregs, hf.i, sameMem_of_mem_eq hf.mem, sameFB_of_fb_eq hf.fb, hf.sp,
    hf.stack⟩

end Sys2Proof.Machine
end
